-- ==== Sys2Proof/Word.lean ====
section
/-! DEFINITION. The fixed-width words of the block (R9): every quantity is unsigned.

A word of the instruction register is NOT here: its width IR_WIDTH is a parameter (R7), so it is a natural number below
`2 ^ IR_WIDTH`, and the arithmetic on it is the spec's own, on naturals (R8, R74, R140). -/

namespace Sys2Proof

/-- `u8` (R9). -/
abbrev Byte := BitVec 8

/-- `u64` (R9): a token of RESCUE_V2, an integer of its answer (R126). -/
abbrev U64 := BitVec 64

/-- `u128` (R9): a token of RESCUE_V1 (R124). -/
abbrev U128 := BitVec 128

end Sys2Proof
end

