-- ==== Sys2Proof/Config.lean ====
section
/-! DEFINITION. What an implementation fixes: the constants of R6, the parameters of R7, the collaborators of R30, and the
free values.

Every `opaque` constant below has no body: nothing in Lean can evaluate it, so a statement about it holds whatever it is. -/

namespace Sys2Proof

/-! ## The constants the source fixes (R6, R73), exported as definitions (R25) -/

/-- Count of control-flow operations (R6). -/
def Config.numCfOps : Nat := 8
/-- Count of stack-load operations (R6). -/
def Config.numLdOps : Nat := 32
/-- Count of hash-domain operations (R6). -/
def Config.numHdOps : Nat := 4
/-- Width of the control-flow opcode field (R6). -/
def Config.numCfOpBits : Nat := 3
/-- Width of the load opcode field (R6). -/
def Config.numLdOpBits : Nat := 5
/-- Width of the hash-domain opcode field (R6). -/
def Config.numHdOpBits : Nat := 2
/-- Width of the sponge range (R6). -/
def Config.spongeWidth : Nat := 4
/-- Field elements in the rate of the external VM's sponge (R6, C4). -/
def Config.hashStateRate : Nat := 4
/-- Field elements in the capacity of the external VM's sponge (R6). -/
def Config.hashStateCapacity : Nat := 2
/-- Rate + capacity (R6). -/
def Config.hashStateWidth : Nat := 6
/-- Digest of the external VM's sponge, in elements; not the adapter's digest (R6, C4). -/
def Config.hashDigestSize : Nat := 2
/-- Inclusive bound of the context-depth counter (R6, R103). -/
def Config.maxContextDepth : Nat := 16
/-- Inclusive bound of the loop-depth counter (R6, R103). -/
def Config.maxLoopDepth : Nat := 8
/-- Exported sizing bound of the external VM (R6, N9). -/
def Config.minTraceLength : Nat := 16
/-- Exported sizing bound of the external VM (R6, N9). -/
def Config.maxRegisterCount : Nat := 128
/-- Exported sizing bound of the external VM (R6, N9). -/
def Config.minExtensionFactor : Nat := 16
/-- Exported sizing bound of the external VM (R6, N9, R175: not a timing figure). -/
def Config.baseCycleLength : Nat := 16
/-- Lower bound of the external VM's stack depth (R6, R21). -/
def Config.minStackDepth : Nat := 8
/-- Upper bound of the external VM's stack depth (R6, R21). -/
def Config.maxStackDepth : Nat := 32
/-- Exported sizing bound of the external VM (R6, N9). -/
def Config.maxPublicInputs : Nat := 8
/-- Exported sizing bound of the external VM (R6, N9). -/
def Config.maxOutputs : Nat := 8
/-- Tokens RESCUE_V1 requires (R6). -/
def Config.v1Arity : Nat := 4
/-- Width each RESCUE_V1 token must fit (R6). -/
def Config.v1TokenBits : Nat := 128
/-- Tokens RESCUE_V2 requires (R6). -/
def Config.v2Arity : Nat := 8
/-- Width each RESCUE_V2 token must fit (R6). -/
def Config.v2TokenBits : Nat := 64
/-- Digest size of the byte-buffer hash collaborator (R6). -/
def Config.digestBytes : Nat := 32
/-- Digest size of the sponge hash collaborator, in field elements (R6). -/
def Config.v2DigestElems : Nat := 4

/-! ## A half-open range of bits of the instruction register (R8) -/

/-- The half-open range `[lo, hi)` (R8): bits `lo`, ..., `hi - 1`. -/
structure BitRange where
  lo : Nat
  hi : Nat
  deriving DecidableEq, Repr

/-- The width of a range (R8). -/
def BitRange.width (r : BitRange) : Nat := r.hi - r.lo

/-- OP_COUNTER_RANGE (R73). -/
def Config.opCounterRange : BitRange := ⟨0, 1⟩
/-- SPONGE_RANGE (R73). -/
def Config.spongeRange : BitRange := ⟨1, 5⟩
/-- CF_OP_BITS_RANGE (R73). -/
def Config.cfOpBitsRange : BitRange := ⟨5, 8⟩
/-- LD_OP_BITS_RANGE (R73). -/
def Config.ldOpBitsRange : BitRange := ⟨8, 13⟩
/-- HD_OP_BITS_RANGE (R73). -/
def Config.hdOpBitsRange : BitRange := ⟨13, 15⟩

/-! ## The parameters the source leaves open (R7) -/

/-- The parameter TEXT_VALID (R7, R129, D15). DESIGN CHOICE (log 5), safe: a rule is named by data, so that State stays
plain data; `custom` stands for every rule a platform may take, by a constant with no body. -/
inductive TextRule where
  /-- Well-formed UTF-8, the default (R129). -/
  | utf8
  /-- Every byte list is text (V94). -/
  | always
  /-- Another rule, the platform's own; `n` names it. -/
  | custom (n : Nat)
  deriving DecidableEq, Repr

/-- The parameters of R7 that are data, each with the spec's default. Each depth range is a parameter whole: place AND width
(U5). -/
structure Params where
  /-- IR_WIDTH (D2). -/
  irWidth : Nat := 32
  /-- CTX_DEPTH_RANGE (R73, D3). -/
  ctxDepthRange : BitRange := ⟨15, 20⟩
  /-- LOOP_DEPTH_RANGE (R73, D3). -/
  loopDepthRange : BitRange := ⟨20, 24⟩
  /-- SPONGE_SEL_MAX, 0..15 (D6). -/
  spongeSelMax : Fin 16 := 15
  /-- ABORT_ON_DEFECT (D14). -/
  abortOnDefect : Bool := false
  /-- TEXT_VALID (D15). -/
  textRule : TextRule := .utf8
  /-- MAX_INPUT_BYTES, `none` being unbounded (D19). -/
  maxInputBytes : Option Nat := none
  deriving DecidableEq, Repr

/-- The parameters at the defaults of R7. -/
def Config.defaults : Params := {}

/-! ## The collaborators (R30): total functions of their argument, under no law -/

/-- The external functions the adapter unit applies, over a type of field elements `FE` (R30). The results are lists of
any length, so that the size check of R128 has something to check. -/
structure Collaborators (FE : Type) where
  /-- H_BYTES: the byte-buffer hash. -/
  hBytes : List Byte → List Byte
  /-- H_SPONGE: the sponge hash. -/
  hSponge : List FE → List FE
  /-- FE_FROM_U64. -/
  feFromU64 : U64 → FE
  /-- FE_TO_U64. -/
  feToU64 : FE → U64

/-- The field-element collaborator with the sponge over it (R7, R30): a type and three total functions, under no law. -/
structure FieldElements where
  /-- FE: the type of field elements. -/
  FE : Type
  /-- H_SPONGE: the sponge hash. -/
  hSponge : List FE → List FE
  /-- FE_FROM_U64. -/
  fromU64 : U64 → FE
  /-- FE_TO_U64. -/
  toU64 : FE → U64

/-- Some field-element collaborator: no body, no law. Lean asks that there be one at all, which the argument in brackets
says; what the constant gives for it nothing can evaluate (log 3). -/
opaque Config.someFieldElements [Inhabited FieldElements] : FieldElements

/-- The field elements this block is bound to, their type included, uninterpreted (R7, R30, N10). The one-element type
here only shows Lean that there is a collaborator; nothing says that the constant gives it back. -/
def Config.fieldElements : FieldElements := @Config.someFieldElements ⟨⟨Unit, id, fun _ => (), fun _ => 0⟩⟩

/-- FE as bound in this block: an uninterpreted type (R7, D18). -/
abbrev Config.FE : Type := Config.fieldElements.FE

/-- H_BYTES as bound in this block (R30, N16): no body, no law. -/
opaque Config.hBytes : List Byte → List Byte
/-- H_SPONGE as bound in this block (R30, N16): uninterpreted. -/
def Config.hSponge : List Config.FE → List Config.FE := Config.fieldElements.hSponge
/-- FE_FROM_U64 as bound in this block (R30, N10): uninterpreted. -/
def Config.feFromU64 : U64 → Config.FE := Config.fieldElements.fromU64
/-- FE_TO_U64 as bound in this block (R30, N10): uninterpreted. -/
def Config.feToU64 : Config.FE → U64 := Config.fieldElements.toU64

/-- The collaborators this block is bound to (R192). -/
def Config.collaborators : Collaborators Config.FE :=
  ⟨Config.hBytes, Config.hSponge, Config.feFromU64, Config.feToU64⟩

/-! ## Free values -/

/-- What the `n`-th rule of `TextRule.custom` accepts (R7, N11): no body, no law (log 5). -/
opaque Config.customTextValid : Nat → List Byte → Bool

/-- DIAG (R7, R178, D28): the content of the diagnostic record emitted as the `n`-th free value, for a fault of the
given code: no body, no law (log 4). -/
opaque Config.diagContent : Nat → BitVec 4 → List Byte

/-- Whether an operation that reset abandons has already emitted its diagnostic record (R190 does not say): no body, no
law (log 9). -/
opaque Config.abandonedDiagSeen : Nat → Bool

end Sys2Proof
end

