-- ==== Sys2Proof/Syntax.lean ====
section
/-! DEFINITION. The request and response formats (R70, R71) and the instructions: one constructor for each row of
spec/opcode_table.json. -/

namespace Sys2Proof

/-- The seven fields of an IR word (R70, R73). The width of the two depth counters is a parameter (R7, U5), so each is a
natural number, which `IrFields.fits` holds to its declared width. DESIGN CHOICE (log 12), safe. -/
structure IrFields where
  /-- op_counter -/
  n : BitVec 1
  /-- sponge_sel -/
  s : BitVec 4
  /-- cf_op -/
  cf : BitVec 3
  /-- ld_op -/
  ld : BitVec 5
  /-- hd_op -/
  hd : BitVec 2
  /-- ctx_depth -/
  ctx : Nat
  /-- loop_depth -/
  loop : Nat
  deriving DecidableEq, Repr

/-- Which row of the table's IR32 format a word is read as: the word as a whole, or by one of its three opcode fields.
The fields are independent and none is primary (R75): the mark only names the row. DESIGN CHOICE (log 6), safe: no
meaning depends on it. -/
inductive Reading where
  /-- The row IR. -/
  | whole
  /-- One of the rows CF0 to CF7. -/
  | cfOp
  /-- One of the rows LD0 to LD31. -/
  | ldOp
  /-- One of the rows HD0 to HD3. -/
  | hdOp
  deriving DecidableEq, Repr

/-- The payload of a request (R70). -/
inductive Payload where
  /-- No payload. -/
  | absent
  /-- One word of IR_WIDTH bits (R73), as a natural number; `reading` names a row of the table's IR32 format, or none. -/
  | word (reading : Option Reading) (w : Nat)
  /-- The seven fields of IRENC. -/
  | fields (f : IrFields)
  /-- A text or byte payload, first byte first (R52). -/
  | data (bytes : List Byte)
  deriving DecidableEq, Repr

/-- A request as the host puts it on the port (R70). -/
structure Request where
  /-- The command code (R72). -/
  cmd : BitVec 3
  payload : Payload
  deriving DecidableEq, Repr

/-- Why the request format excludes a request (R200). -/
inductive DecodeError where
  /-- The payload is not of the command's type (R70). -/
  | wrongPayload
  /-- The IR word has a bit at or above IR_WIDTH. -/
  | wordTooWide
  /-- A depth field of IRENC does not fit its declared width (R106). -/
  | fieldTooWide
  deriving DecidableEq, Repr

/-- The faults of the block (R161): each ends an operation with its status code and no payload (R160). They are answers
the block gives, not stops of the machine. -/
inductive FaultCode where
  /-- ERR_ILLEGAL_CMD -/
  | illegalCmd
  /-- ERR_IR_RESERVED -/
  | irReserved
  /-- ERR_IR_OPCODE_RANGE -/
  | irOpcodeRange
  /-- ERR_IR_SPONGE_SEL -/
  | irSpongeSel
  /-- ERR_IR_CTX_DEPTH -/
  | irCtxDepth
  /-- ERR_IR_LOOP_DEPTH -/
  | irLoopDepth
  /-- ERR_ARITY -/
  | arity
  /-- ERR_PARSE -/
  | parse
  /-- ERR_TEXT -/
  | text
  /-- ERR_INTERNAL -/
  | internal
  /-- ERR_TOO_LONG -/
  | tooLong
  /-- ERR_HALTED -/
  | halted
  deriving DecidableEq, Repr

/-- The payload of an OK response (R71). -/
inductive OkPayload where
  /-- INIT_HOOK: none. -/
  | absent
  /-- IRDEC: the seven fields. -/
  | fields (f : IrFields)
  /-- IRENC: one word of IR_WIDTH bits. -/
  | word (w : Nat)
  /-- RESCUE_V1: the digest, first byte first. -/
  | bytes (d : List Byte)
  /-- RESCUE_V2: the integers, element 0 first. -/
  | integers (v : List U64)
  /-- RESCUE_V3: the digest as text, byte for byte. -/
  | text (d : List Byte)
  deriving DecidableEq, Repr

/-- A response (R71): a payload exactly when the status is OK. -/
inductive Response where
  | ok (payload : OkPayload)
  | fault (code : FaultCode)
  deriving DecidableEq, Repr

/-- The instructions: one constructor for each row of spec/opcode_table.json. The first eight are the commands of the
request format (R70, R72); the others are the rows of the IR32 format, an IR word read as a whole or by one of its
opcode fields (R73, R75). -/
inductive Instr where
  /-- IRDEC: decode one IR word (R101). -/
  | irdec (w : Nat)
  /-- IRENC: assemble an IR word (R106). -/
  | irenc (f : IrFields)
  /-- RESCUE_V1 (R124). -/
  | rescueV1 (data : List Byte)
  /-- RESCUE_V2 (R126). -/
  | rescueV2 (data : List Byte)
  /-- RESCUE_V3 (R127). -/
  | rescueV3 (data : List Byte)
  /-- INIT_HOOK (R150). -/
  | initHook
  /-- Command code 6 (R151); the payload is ignored. -/
  | illegalCmd6 (payload : Payload)
  /-- Command code 7 (R151); the payload is ignored. -/
  | illegalCmd7 (payload : Payload)
  /-- IR: the word as a whole (R73, R101). -/
  | ir (w : Nat)
  /-- CF0: an IR word whose cf_op is 0 (R75). -/
  | cf0 (w : Nat)
  /-- CF1: an IR word whose cf_op is 1 (R75). -/
  | cf1 (w : Nat)
  /-- CF2: an IR word whose cf_op is 2 (R75). -/
  | cf2 (w : Nat)
  /-- CF3: an IR word whose cf_op is 3 (R75). -/
  | cf3 (w : Nat)
  /-- CF4: an IR word whose cf_op is 4 (R75). -/
  | cf4 (w : Nat)
  /-- CF5: an IR word whose cf_op is 5 (R75). -/
  | cf5 (w : Nat)
  /-- CF6: an IR word whose cf_op is 6 (R75). -/
  | cf6 (w : Nat)
  /-- CF7: an IR word whose cf_op is 7 (R75). -/
  | cf7 (w : Nat)
  /-- LD0: an IR word whose ld_op is 0 (R75). -/
  | ld0 (w : Nat)
  /-- LD1: an IR word whose ld_op is 1 (R75). -/
  | ld1 (w : Nat)
  /-- LD2: an IR word whose ld_op is 2 (R75). -/
  | ld2 (w : Nat)
  /-- LD3: an IR word whose ld_op is 3 (R75). -/
  | ld3 (w : Nat)
  /-- LD4: an IR word whose ld_op is 4 (R75). -/
  | ld4 (w : Nat)
  /-- LD5: an IR word whose ld_op is 5 (R75). -/
  | ld5 (w : Nat)
  /-- LD6: an IR word whose ld_op is 6 (R75). -/
  | ld6 (w : Nat)
  /-- LD7: an IR word whose ld_op is 7 (R75). -/
  | ld7 (w : Nat)
  /-- LD8: an IR word whose ld_op is 8 (R75). -/
  | ld8 (w : Nat)
  /-- LD9: an IR word whose ld_op is 9 (R75). -/
  | ld9 (w : Nat)
  /-- LD10: an IR word whose ld_op is 10 (R75). -/
  | ld10 (w : Nat)
  /-- LD11: an IR word whose ld_op is 11 (R75). -/
  | ld11 (w : Nat)
  /-- LD12: an IR word whose ld_op is 12 (R75). -/
  | ld12 (w : Nat)
  /-- LD13: an IR word whose ld_op is 13 (R75). -/
  | ld13 (w : Nat)
  /-- LD14: an IR word whose ld_op is 14 (R75). -/
  | ld14 (w : Nat)
  /-- LD15: an IR word whose ld_op is 15 (R75). -/
  | ld15 (w : Nat)
  /-- LD16: an IR word whose ld_op is 16 (R75). -/
  | ld16 (w : Nat)
  /-- LD17: an IR word whose ld_op is 17 (R75). -/
  | ld17 (w : Nat)
  /-- LD18: an IR word whose ld_op is 18 (R75). -/
  | ld18 (w : Nat)
  /-- LD19: an IR word whose ld_op is 19 (R75). -/
  | ld19 (w : Nat)
  /-- LD20: an IR word whose ld_op is 20 (R75). -/
  | ld20 (w : Nat)
  /-- LD21: an IR word whose ld_op is 21 (R75). -/
  | ld21 (w : Nat)
  /-- LD22: an IR word whose ld_op is 22 (R75). -/
  | ld22 (w : Nat)
  /-- LD23: an IR word whose ld_op is 23 (R75). -/
  | ld23 (w : Nat)
  /-- LD24: an IR word whose ld_op is 24 (R75). -/
  | ld24 (w : Nat)
  /-- LD25: an IR word whose ld_op is 25 (R75). -/
  | ld25 (w : Nat)
  /-- LD26: an IR word whose ld_op is 26 (R75). -/
  | ld26 (w : Nat)
  /-- LD27: an IR word whose ld_op is 27 (R75). -/
  | ld27 (w : Nat)
  /-- LD28: an IR word whose ld_op is 28 (R75). -/
  | ld28 (w : Nat)
  /-- LD29: an IR word whose ld_op is 29 (R75). -/
  | ld29 (w : Nat)
  /-- LD30: an IR word whose ld_op is 30 (R75). -/
  | ld30 (w : Nat)
  /-- LD31: an IR word whose ld_op is 31 (R75). -/
  | ld31 (w : Nat)
  /-- HD0: an IR word whose hd_op is 0 (R75). -/
  | hd0 (w : Nat)
  /-- HD1: an IR word whose hd_op is 1 (R75). -/
  | hd1 (w : Nat)
  /-- HD2: an IR word whose hd_op is 2 (R75). -/
  | hd2 (w : Nat)
  /-- HD3: an IR word whose hd_op is 3 (R75). -/
  | hd3 (w : Nat)
  deriving DecidableEq, Repr

end Sys2Proof
end

