-- ==== Sys2Proof/WellFormed.lean ====
section
/-! DEFINITION. Which instructions and requests are well formed: what the host can issue (R200) and, for the rows of the
table's IR32 format, the row's own match and mask (R75). -/

namespace Sys2Proof

/-- The two depth counters fit the width of their ranges (R70, R106: "Each field arrives at its declared width"). -/
def IrFields.fits (p : Params) (f : IrFields) : Bool :=
  decide (f.ctx < 2 ^ p.ctxDepthRange.width) && decide (f.loop < 2 ^ p.loopDepthRange.width)

/-- The request format (R70): the payload is of the command's type, an IR word has no bit at or above IR_WIDTH, and the
fields of IRENC fit their widths.
Codes 6 and 7 take any payload (R70, R77). -/
def Request.fits (p : Params) (r : Request) : Bool :=
  match r.cmd.toNat, r.payload with
  | 0, .word _ w => decide (w < 2 ^ p.irWidth)
  | 1, .fields f => f.fits p
  | 2, .data _ => true
  | 3, .data _ => true
  | 4, .data _ => true
  | 5, .absent => true
  | 6, _ => true
  | 7, _ => true
  | _, _ => false

/-- The word matches a row of the IR32 format whose opcode field starts at bit `lo`, is `width` bits wide and holds `k`:
the bits from 24 up are zero and the field is `k` (R75). DESIGN CHOICE (log 21), safe: R75 gives its masks for the default
layout, and the model keeps them when the depth ranges are not the defaults. -/
def rowMatches (lo width k w : Nat) : Bool :=
  decide (w < 2 ^ 24) && w / 2 ^ lo % 2 ^ width == k

/-- Well-formed instructions under the parameters `p`: the word of IRDEC fits IR_WIDTH; the fields of
IRENC fit their widths; the word of a row of the IR32
format fits IR_WIDTH and matches the row. -/
def Instr.wf (p : Params) : Instr → Bool
  | .irdec w => decide (w < 2 ^ p.irWidth)
  | .irenc f => f.fits p
  | .rescueV1 _ => true
  | .rescueV2 _ => true
  | .rescueV3 _ => true
  | .initHook => true
  | .illegalCmd6 _ => true
  | .illegalCmd7 _ => true
  | .ir w => decide (w < 2 ^ p.irWidth) && decide (w < 2 ^ 24)
  | .cf0 w => decide (w < 2 ^ p.irWidth) && rowMatches 5 3 0 w
  | .cf1 w => decide (w < 2 ^ p.irWidth) && rowMatches 5 3 1 w
  | .cf2 w => decide (w < 2 ^ p.irWidth) && rowMatches 5 3 2 w
  | .cf3 w => decide (w < 2 ^ p.irWidth) && rowMatches 5 3 3 w
  | .cf4 w => decide (w < 2 ^ p.irWidth) && rowMatches 5 3 4 w
  | .cf5 w => decide (w < 2 ^ p.irWidth) && rowMatches 5 3 5 w
  | .cf6 w => decide (w < 2 ^ p.irWidth) && rowMatches 5 3 6 w
  | .cf7 w => decide (w < 2 ^ p.irWidth) && rowMatches 5 3 7 w
  | .ld0 w => decide (w < 2 ^ p.irWidth) && rowMatches 8 5 0 w
  | .ld1 w => decide (w < 2 ^ p.irWidth) && rowMatches 8 5 1 w
  | .ld2 w => decide (w < 2 ^ p.irWidth) && rowMatches 8 5 2 w
  | .ld3 w => decide (w < 2 ^ p.irWidth) && rowMatches 8 5 3 w
  | .ld4 w => decide (w < 2 ^ p.irWidth) && rowMatches 8 5 4 w
  | .ld5 w => decide (w < 2 ^ p.irWidth) && rowMatches 8 5 5 w
  | .ld6 w => decide (w < 2 ^ p.irWidth) && rowMatches 8 5 6 w
  | .ld7 w => decide (w < 2 ^ p.irWidth) && rowMatches 8 5 7 w
  | .ld8 w => decide (w < 2 ^ p.irWidth) && rowMatches 8 5 8 w
  | .ld9 w => decide (w < 2 ^ p.irWidth) && rowMatches 8 5 9 w
  | .ld10 w => decide (w < 2 ^ p.irWidth) && rowMatches 8 5 10 w
  | .ld11 w => decide (w < 2 ^ p.irWidth) && rowMatches 8 5 11 w
  | .ld12 w => decide (w < 2 ^ p.irWidth) && rowMatches 8 5 12 w
  | .ld13 w => decide (w < 2 ^ p.irWidth) && rowMatches 8 5 13 w
  | .ld14 w => decide (w < 2 ^ p.irWidth) && rowMatches 8 5 14 w
  | .ld15 w => decide (w < 2 ^ p.irWidth) && rowMatches 8 5 15 w
  | .ld16 w => decide (w < 2 ^ p.irWidth) && rowMatches 8 5 16 w
  | .ld17 w => decide (w < 2 ^ p.irWidth) && rowMatches 8 5 17 w
  | .ld18 w => decide (w < 2 ^ p.irWidth) && rowMatches 8 5 18 w
  | .ld19 w => decide (w < 2 ^ p.irWidth) && rowMatches 8 5 19 w
  | .ld20 w => decide (w < 2 ^ p.irWidth) && rowMatches 8 5 20 w
  | .ld21 w => decide (w < 2 ^ p.irWidth) && rowMatches 8 5 21 w
  | .ld22 w => decide (w < 2 ^ p.irWidth) && rowMatches 8 5 22 w
  | .ld23 w => decide (w < 2 ^ p.irWidth) && rowMatches 8 5 23 w
  | .ld24 w => decide (w < 2 ^ p.irWidth) && rowMatches 8 5 24 w
  | .ld25 w => decide (w < 2 ^ p.irWidth) && rowMatches 8 5 25 w
  | .ld26 w => decide (w < 2 ^ p.irWidth) && rowMatches 8 5 26 w
  | .ld27 w => decide (w < 2 ^ p.irWidth) && rowMatches 8 5 27 w
  | .ld28 w => decide (w < 2 ^ p.irWidth) && rowMatches 8 5 28 w
  | .ld29 w => decide (w < 2 ^ p.irWidth) && rowMatches 8 5 29 w
  | .ld30 w => decide (w < 2 ^ p.irWidth) && rowMatches 8 5 30 w
  | .ld31 w => decide (w < 2 ^ p.irWidth) && rowMatches 8 5 31 w
  | .hd0 w => decide (w < 2 ^ p.irWidth) && rowMatches 13 2 0 w
  | .hd1 w => decide (w < 2 ^ p.irWidth) && rowMatches 13 2 1 w
  | .hd2 w => decide (w < 2 ^ p.irWidth) && rowMatches 13 2 2 w
  | .hd3 w => decide (w < 2 ^ p.irWidth) && rowMatches 13 2 3 w

end Sys2Proof
end

