-- ==== Sys2Proof/Decode.lean ====
section
/-! DEFINITION. The decoder, total on any request, and the encoder (R70, R72, R73, R75).

A request is decoded to the instruction its command code selects. An IRDEC request whose word carries a reading is
decoded to the row of the IR32 format that reading names, when the word's bits from 24 up are zero as every such row
demands (R75; log 21 for layouts other than the default); without a reading, or with such a bit set, it is plain IRDEC. -/

namespace Sys2Proof

/-- The value of bits `[lo, hi)` of a word (R8, R74): mask and shift. -/
def irField (w : Nat) (r : BitRange) : Nat := w / 2 ^ r.lo % 2 ^ (r.hi - r.lo)

/-- The row CF`k` (R75). -/
def cfRow (k w : Nat) : Instr :=
  match k with
  | 0 => .cf0 w
  | 1 => .cf1 w
  | 2 => .cf2 w
  | 3 => .cf3 w
  | 4 => .cf4 w
  | 5 => .cf5 w
  | 6 => .cf6 w
  | 7 => .cf7 w
  | _ => .irdec w

/-- The row LD`k` (R75). -/
def ldRow (k w : Nat) : Instr :=
  match k with
  | 0 => .ld0 w
  | 1 => .ld1 w
  | 2 => .ld2 w
  | 3 => .ld3 w
  | 4 => .ld4 w
  | 5 => .ld5 w
  | 6 => .ld6 w
  | 7 => .ld7 w
  | 8 => .ld8 w
  | 9 => .ld9 w
  | 10 => .ld10 w
  | 11 => .ld11 w
  | 12 => .ld12 w
  | 13 => .ld13 w
  | 14 => .ld14 w
  | 15 => .ld15 w
  | 16 => .ld16 w
  | 17 => .ld17 w
  | 18 => .ld18 w
  | 19 => .ld19 w
  | 20 => .ld20 w
  | 21 => .ld21 w
  | 22 => .ld22 w
  | 23 => .ld23 w
  | 24 => .ld24 w
  | 25 => .ld25 w
  | 26 => .ld26 w
  | 27 => .ld27 w
  | 28 => .ld28 w
  | 29 => .ld29 w
  | 30 => .ld30 w
  | 31 => .ld31 w
  | _ => .irdec w

/-- The row HD`k` (R75). -/
def hdRow (k w : Nat) : Instr :=
  match k with
  | 0 => .hd0 w
  | 1 => .hd1 w
  | 2 => .hd2 w
  | 3 => .hd3 w
  | _ => .irdec w

/-- The instruction of an IRDEC request: IRDEC, or the row of the IR32 format its reading names (R75). A row demands zero
bits from 24 up in every layout: DESIGN CHOICE (log 21), safe, for only the constructor's name depends on it. -/
def decodeIrWord (reading : Option Reading) (w : Nat) : Instr :=
  if w < 2 ^ 24 then
    match reading with
    | none => .irdec w
    | some .whole => .ir w
    | some .cfOp => cfRow (irField w Config.cfOpBitsRange) w
    | some .ldOp => ldRow (irField w Config.ldOpBitsRange) w
    | some .hdOp => hdRow (irField w Config.hdOpBitsRange) w
  else .irdec w

/-- The decoder: the instruction a request selects (R72), or why the request format excludes the request (R200). -/
def decode (p : Params) (r : Request) : Except DecodeError Instr :=
  match r.cmd.toNat with
  | 0 =>
    match r.payload with
    | .word reading w => if w < 2 ^ p.irWidth then .ok (decodeIrWord reading w) else .error .wordTooWide
    | _ => .error .wrongPayload
  | 1 =>
    match r.payload with
    | .fields f => if f.fits p = true then .ok (.irenc f) else .error .fieldTooWide
    | _ => .error .wrongPayload
  | 2 =>
    match r.payload with
    | .data d => .ok (.rescueV1 d)
    | _ => .error .wrongPayload
  | 3 =>
    match r.payload with
    | .data d => .ok (.rescueV2 d)
    | _ => .error .wrongPayload
  | 4 =>
    match r.payload with
    | .data d => .ok (.rescueV3 d)
    | _ => .error .wrongPayload
  | 5 =>
    match r.payload with
    | .absent => .ok .initHook
    | _ => .error .wrongPayload
  | 6 => .ok (.illegalCmd6 r.payload)
  | _ => .ok (.illegalCmd7 r.payload)

/-- The encoder: the request that carries an instruction (R72, R73, R75). -/
def encode : Instr → Request
  | .irdec w => ⟨0, .word none w⟩
  | .irenc f => ⟨1, .fields f⟩
  | .rescueV1 d => ⟨2, .data d⟩
  | .rescueV2 d => ⟨3, .data d⟩
  | .rescueV3 d => ⟨4, .data d⟩
  | .initHook => ⟨5, .absent⟩
  | .illegalCmd6 pl => ⟨6, pl⟩
  | .illegalCmd7 pl => ⟨7, pl⟩
  | .ir w => ⟨0, .word (some .whole) w⟩
  | .cf0 w => ⟨0, .word (some .cfOp) w⟩
  | .cf1 w => ⟨0, .word (some .cfOp) w⟩
  | .cf2 w => ⟨0, .word (some .cfOp) w⟩
  | .cf3 w => ⟨0, .word (some .cfOp) w⟩
  | .cf4 w => ⟨0, .word (some .cfOp) w⟩
  | .cf5 w => ⟨0, .word (some .cfOp) w⟩
  | .cf6 w => ⟨0, .word (some .cfOp) w⟩
  | .cf7 w => ⟨0, .word (some .cfOp) w⟩
  | .ld0 w => ⟨0, .word (some .ldOp) w⟩
  | .ld1 w => ⟨0, .word (some .ldOp) w⟩
  | .ld2 w => ⟨0, .word (some .ldOp) w⟩
  | .ld3 w => ⟨0, .word (some .ldOp) w⟩
  | .ld4 w => ⟨0, .word (some .ldOp) w⟩
  | .ld5 w => ⟨0, .word (some .ldOp) w⟩
  | .ld6 w => ⟨0, .word (some .ldOp) w⟩
  | .ld7 w => ⟨0, .word (some .ldOp) w⟩
  | .ld8 w => ⟨0, .word (some .ldOp) w⟩
  | .ld9 w => ⟨0, .word (some .ldOp) w⟩
  | .ld10 w => ⟨0, .word (some .ldOp) w⟩
  | .ld11 w => ⟨0, .word (some .ldOp) w⟩
  | .ld12 w => ⟨0, .word (some .ldOp) w⟩
  | .ld13 w => ⟨0, .word (some .ldOp) w⟩
  | .ld14 w => ⟨0, .word (some .ldOp) w⟩
  | .ld15 w => ⟨0, .word (some .ldOp) w⟩
  | .ld16 w => ⟨0, .word (some .ldOp) w⟩
  | .ld17 w => ⟨0, .word (some .ldOp) w⟩
  | .ld18 w => ⟨0, .word (some .ldOp) w⟩
  | .ld19 w => ⟨0, .word (some .ldOp) w⟩
  | .ld20 w => ⟨0, .word (some .ldOp) w⟩
  | .ld21 w => ⟨0, .word (some .ldOp) w⟩
  | .ld22 w => ⟨0, .word (some .ldOp) w⟩
  | .ld23 w => ⟨0, .word (some .ldOp) w⟩
  | .ld24 w => ⟨0, .word (some .ldOp) w⟩
  | .ld25 w => ⟨0, .word (some .ldOp) w⟩
  | .ld26 w => ⟨0, .word (some .ldOp) w⟩
  | .ld27 w => ⟨0, .word (some .ldOp) w⟩
  | .ld28 w => ⟨0, .word (some .ldOp) w⟩
  | .ld29 w => ⟨0, .word (some .ldOp) w⟩
  | .ld30 w => ⟨0, .word (some .ldOp) w⟩
  | .ld31 w => ⟨0, .word (some .ldOp) w⟩
  | .hd0 w => ⟨0, .word (some .hdOp) w⟩
  | .hd1 w => ⟨0, .word (some .hdOp) w⟩
  | .hd2 w => ⟨0, .word (some .hdOp) w⟩
  | .hd3 w => ⟨0, .word (some .hdOp) w⟩

/-- The reading a bare word of the opcode table is given: by the one opcode field that is not zero, and as a whole when
none or more than one is. DESIGN CHOICE (log 7), safe: one word names one operation of each class at once (R75), so a
bare word alone does not say which row is meant, and no meaning depends on it. -/
def tableReading (w : Nat) : Reading :=
  let c := irField w Config.cfOpBitsRange
  let l := irField w Config.ldOpBitsRange
  let h := irField w Config.hdOpBitsRange
  if c ≠ 0 ∧ l = 0 ∧ h = 0 then .cfOp
  else if c = 0 ∧ l ≠ 0 ∧ h = 0 then .ldOp
  else if c = 0 ∧ l = 0 ∧ h ≠ 0 then .hdOp
  else .whole

/-- The request of command code `c` whose payload is of the command's type and all zero: the word 0, seven zero fields,
the empty byte list (log 8). -/
def zeroRequest (c : BitVec 3) : Request :=
  match c.toNat with
  | 0 => ⟨c, .word none 0⟩
  | 1 => ⟨c, .fields ⟨0, 0, 0, 0, 0, 0, 0⟩⟩
  | 2 => ⟨c, .data []⟩
  | 3 => ⟨c, .data []⟩
  | 4 => ⟨c, .data []⟩
  | _ => ⟨c, .absent⟩

/-- The request that a word of the opcode table stands for: a row of format REQ gives the three bits of the command (in
whole bytes, eight), a row of format IR32 the word an IRDEC request carries (R70, R75; log 8). -/
def tableRequest (nbits w : Nat) : Request :=
  if nbits ≤ 8 then zeroRequest (BitVec.ofNat 3 w)
  else ⟨0, .word (some (tableReading w)) w⟩

/-- What the decoder reads from a word of the opcode table, at the default parameters. -/
def decodeTableWord (nbits w : Nat) : Option Instr :=
  match decode Config.defaults (tableRequest nbits w) with
  | .ok i => some i
  | .error _ => none

end Sys2Proof
end

