-- ==== Sys2Proof/Machine/Operands.lean ====
section
/-! DEFINITION. The operands: the layout of the IR word (R73, R74, R108), the text of decimal integers (R80, R81), the hash
input buffer (R51), and what valid text is (R129). -/

namespace Sys2Proof.Machine

/-! ## The IR word -/

/-- The seven declared ranges, in the order of R73. -/
def declaredRanges (p : Params) : List BitRange :=
  [Config.opCounterRange, Config.spongeRange, Config.cfOpBitsRange, Config.ldOpBitsRange, Config.hdOpBitsRange,
    p.ctxDepthRange, p.loopDepthRange]

/-- Two ranges share no bit (R73): the higher first bit is not below the lower end. -/
def rangesDisjoint (a b : BitRange) : Bool := decide (min a.hi b.hi ≤ max a.lo b.lo)

/-- No two ranges of the list overlap. -/
def noOverlap : List BitRange → Bool
  | [] => true
  | a :: rest => rest.all (rangesDisjoint a) && noOverlap rest

/-- The layout assertions that involve parameters (R73, R108): IR_WIDTH is at least 24 (R7), every declared range is a
half-open range (R8) within the register, no two overlap, and the declared widths sum to at most IR_WIDTH. The other assertions are about
constants and hold as they stand. -/
def layoutOk (p : Params) : Bool :=
  decide (24 ≤ p.irWidth) && (declaredRanges p).all (fun r => decide (r.lo ≤ r.hi) && decide (r.hi ≤ p.irWidth))
    && noOverlap (declaredRanges p) && decide (((declaredRanges p).map BitRange.width).sum ≤ p.irWidth)

/-- The mask of a range (R73). -/
def rangeMask (r : BitRange) : Nat := (2 ^ r.width - 1) * 2 ^ r.lo

/-- The mask of RESERVED_RANGE (R73, R102): every bit of the register that belongs to no declared field. -/
def reservedMask (p : Params) : Nat :=
  2 ^ p.irWidth - 1 - ((declaredRanges p).map rangeMask).sum

/-- The reserved bits of a word (R102). -/
def reservedBits (p : Params) (w : Nat) : Nat := w &&& reservedMask p

/-- Field extraction (R74): each field masked and shifted out of the word, unsigned. -/
def extractFields (p : Params) (w : Nat) : IrFields where
  n := BitVec.ofNat 1 (irField w Config.opCounterRange)
  s := BitVec.ofNat 4 (irField w Config.spongeRange)
  cf := BitVec.ofNat 3 (irField w Config.cfOpBitsRange)
  ld := BitVec.ofNat 5 (irField w Config.ldOpBitsRange)
  hd := BitVec.ofNat 2 (irField w Config.hdOpBitsRange)
  ctx := irField w p.ctxDepthRange
  loop := irField w p.loopDepthRange

/-- Field assembly (R74, R106): the sum of each value times the weight of its range's first bit; reserved bits zero. -/
def assembleFields (p : Params) (f : IrFields) : Nat :=
  f.n.toNat * 2 ^ Config.opCounterRange.lo + f.s.toNat * 2 ^ Config.spongeRange.lo
    + f.cf.toNat * 2 ^ Config.cfOpBitsRange.lo + f.ld.toNat * 2 ^ Config.ldOpBitsRange.lo
    + f.hd.toNat * 2 ^ Config.hdOpBitsRange.lo + f.ctx * 2 ^ p.ctxDepthRange.lo
    + f.loop * 2 ^ p.loopDepthRange.lo

/-- The word `w` with the field of range `r` holding `k`: the operand form of a row that names an opcode value (R75). -/
def withField (r : BitRange) (k w : Nat) : Nat := w - irField w r * 2 ^ r.lo + k * 2 ^ r.lo

/-! ## Text of decimal integers -/

/-- The comma, the only separator (R80). -/
def comma : Byte := 0x2C

/-- The maximal runs of bytes between commas, empty runs included (R80). -/
def splitAtCommas : List Byte → List (List Byte)
  | [] => [[]]
  | b :: rest =>
    if b = comma then [] :: splitAtCommas rest
    else
      match splitAtCommas rest with
      | [] => [[b]]
      | t :: ts => (b :: t) :: ts

/-- The tokens of a text (R80, R121, C8): the empty text has none. -/
def tokens (text : List Byte) : List (List Byte) :=
  if text = [] then [] else splitAtCommas text

/-- An ASCII decimal digit, 0x30 to 0x39 (R80). -/
def isDigit (b : Byte) : Bool := decide (0x30 ≤ b.toNat) && decide (b.toNat ≤ 0x39)

/-- A well-formed token: not empty, digits only (R80). -/
def tokenWellFormed (t : List Byte) : Bool := !t.isEmpty && t.all isDigit

/-- The value of a token: the sum of each digit times its power of ten, in unbounded naturals (R81). -/
def tokenValue : List Byte → Nat
  | [] => 0
  | b :: rest => (b.toNat - 0x30) * 10 ^ rest.length + tokenValue rest

/-- One token at width `W` (R122): ERR_PARSE when it is not well formed or does not fit. -/
def parseToken (W : Nat) (t : List Byte) : Except FaultCode (BitVec W) :=
  if tokenWellFormed t = true ∧ tokenValue t < 2 ^ W then .ok (BitVec.ofNat W (tokenValue t)) else .error .parse

/-- The token check (R122): the tokens in order, the first bad one ending the operation. -/
def parseTokens (W : Nat) : List (List Byte) → Except FaultCode (List (BitVec W))
  | [] => .ok []
  | t :: ts =>
    match parseToken W t with
    | .error code => .error code
    | .ok v =>
      match parseTokens W ts with
      | .error code => .error code
      | .ok vs => .ok (v :: vs)

/-- The payload is longer than MAX_INPUT_BYTES (R132). -/
def tooLong (p : Params) (payload : List Byte) : Bool :=
  match p.maxInputBytes with
  | none => false
  | some limit => decide (limit < payload.length)

/-- Stages 0 and 1 of a text operation (R120): the length gate (R132), the arity check (R123), the token check (R122). -/
def parseText (p : Params) (arity W : Nat) (text : List Byte) : Except FaultCode (List (BitVec W)) :=
  if tooLong p text = true then .error .tooLong
  else if (tokens text).length ≠ arity then .error .arity
  else parseTokens W (tokens text)

/-! ## The hash input buffer of RESCUE_V1 -/

/-- The `count` low bytes of a value, least significant first (R51). -/
def littleEndian : Nat → Nat → List Byte
  | 0, _ => []
  | count + 1, v => BitVec.ofNat 8 v :: littleEndian count (v / 256)

/-- The hash input buffer (R51, R125): element 0 first, sixteen bytes each, least significant byte first. -/
def hashBuffer (v : List U128) : List Byte := v.flatMap (fun x => littleEndian 16 x.toNat)

/-! ## Valid text -/

/-- The nine shapes of a well-formed UTF-8 sequence, as inclusive byte ranges (R129). -/
def utf8Shapes : List (List (Nat × Nat)) :=
  [ [(0x00, 0x7F)],
    [(0xC2, 0xDF), (0x80, 0xBF)],
    [(0xE0, 0xE0), (0xA0, 0xBF), (0x80, 0xBF)],
    [(0xE1, 0xEC), (0x80, 0xBF), (0x80, 0xBF)],
    [(0xED, 0xED), (0x80, 0x9F), (0x80, 0xBF)],
    [(0xEE, 0xEF), (0x80, 0xBF), (0x80, 0xBF)],
    [(0xF0, 0xF0), (0x90, 0xBF), (0x80, 0xBF), (0x80, 0xBF)],
    [(0xF1, 0xF3), (0x80, 0xBF), (0x80, 0xBF), (0x80, 0xBF)],
    [(0xF4, 0xF4), (0x80, 0x8F), (0x80, 0xBF), (0x80, 0xBF)] ]

/-- What is left of a byte list after a sequence of the given shape, if it starts with one. -/
def dropShape : List (Nat × Nat) → List Byte → Option (List Byte)
  | [], l => some l
  | _ :: _, [] => none
  | (lo, hi) :: shape, b :: l => if lo ≤ b.toNat ∧ b.toNat ≤ hi then dropShape shape l else none

/-- A byte list of at most `fuel` sequences is a concatenation of sequences of the nine shapes (R129). -/
def utf8Within : Nat → List Byte → Bool
  | _, [] => true
  | 0, _ :: _ => false
  | fuel + 1, b :: l =>
    match utf8Shapes.findSome? (fun shape => dropShape shape (b :: l)) with
    | none => false
    | some rest => utf8Within fuel rest

/-- Well-formed UTF-8 (R129): a list of `n` bytes has at most `n` sequences. -/
def utf8WellFormed (l : List Byte) : Bool := utf8Within l.length l

/-- TEXT_VALID as the configuration names it (R7, R129). -/
def textValid (rule : TextRule) (l : List Byte) : Bool :=
  match rule with
  | .utf8 => utf8WellFormed l
  | .always => true
  | .custom n => Config.customTextValid n l

end Sys2Proof.Machine
end

