-- ==== Sys2Proof/Machine/State.lean ====
section
/-! DEFINITION. The state: the two bits the spec gives the block (R20), the configuration (R7, R30), and what the model
keeps of the world outside the block: the host's events not yet taken (R200) and what a run shows (R201).

The block has no register, no program counter, no memory and no mode (R21, R22, R50, R174). -/

namespace Sys2Proof.Machine

/-- Why a step finds no move: the machine stops. No instruction's meaning raises one. -/
inductive Fault where
  /-- Raised by the port (`serve`): the request format excludes the request (R200: a payload of the wrong type, a word
  wider than IR_WIDTH, or a field wider than declared), so no rule says what would happen. A stuck state, safe (log 10): the host cannot issue it. -/
  | excludedRequest (e : DecodeError)
  deriving DecidableEq, Repr

/-- Why a step has no meaning. -/
inductive Refusal where
  /-- Raised by an arm of `exec` whose instruction has no meaning yet; safe. No arm raises it. -/
  | notModelled (mnemonic : String)
  /-- Raised by `step`: the configuration breaks a layout assertion, a build-time defect for which no run-time behaviour
  is defined (R108, R197, U6); safe (log 11). -/
  | layoutDefect
  deriving DecidableEq, Repr

/-- What the host may do at the port (R200). -/
inductive HostEvent where
  /-- Issue a request and wait for its response. -/
  | request (r : Request)
  /-- Issue a request and apply reset before its response is given (R190). -/
  | abandoned (r : Request)
  /-- Apply reset while the block is idle (R190). -/
  | reset
  deriving DecidableEq, Repr

/-- A diagnostic record: the event DIAG(F) of a fault entry (R171, R178). -/
structure DiagRecord where
  /-- The fault that was entered. -/
  cause : FaultCode
  /-- What the handler emitted, a free value (D28). -/
  content : List Byte
  deriving DecidableEq, Repr

/-- The state. `hook` and `halted` are the block's (R20); `params` is its configuration; the other fields are the
model's own and no operation's status or payload depends on them (R29). -/
structure State where
  /-- HOOK, CSR[0] (R25, R26). -/
  hook : Bool
  /-- HALTED, CSR[1] (R25, R27). -/
  halted : Bool
  /-- The parameters the block is built with (R7); no step changes them (R190). -/
  params : Params
  /-- The host's events the block has not taken yet, oldest first (R22, R200). -/
  port : List HostEvent
  /-- The responses given so far, in order (R71, R201). -/
  responses : List Response
  /-- The diagnostic records emitted so far, in order (R178, R201). -/
  diags : List DiagRecord
  /-- How many free values have been drawn: the counter the uninterpreted constants are applied to. -/
  draws : Nat
  deriving DecidableEq, Repr

/-- The block right after reset at the default parameters (R7, R31, R190): HOOK = 0, HALTED = 0, idle. No host event is
waiting and nothing has been shown yet (DESIGN CHOICE, logs 1, 4, 9 and 13). -/
def State.reset : State where
  hook := false
  halted := false
  params := Config.defaults
  port := []
  responses := []
  diags := []
  draws := 0

end Sys2Proof.Machine
end

