-- ==== Sys2Proof/Machine/Flags.lean ====
section
/-! DEFINITION. The control-and-status register (R25) and its two bits. The block has no condition codes and no other
flag (R23). -/

namespace Sys2Proof.Machine

/-- CSR as a two-bit register: CSR[0] is HOOK, CSR[1] is HALTED (R25). No operation returns it. -/
def csr (s : State) : BitVec 2 := BitVec.ofBool s.halted ++ BitVec.ofBool s.hook

/-- `HOOK <- 1` (R26, R150). -/
def setHook (s : State) : State := { s with hook := true }

/-- `HALTED <- 1` (R27, R171). -/
def setHalted (s : State) : State := { s with halted := true }

/-- Reset's effect on CSR: both bits 0 (R25, R31, R190). -/
def clearCsr (s : State) : State := { s with hook := false, halted := false }

end Sys2Proof.Machine
end

