-- ==== Sys2Proof/Machine/Ops.lean ====
section
/-! DEFINITION. The operations every instruction shares: giving the response (R71), entering a fault (R171), the halt
gate (R180), and reset (R190). There is no return from a fault (R172). -/

namespace Sys2Proof.Machine

/-- The code of a fault (R161). -/
def faultStatus : FaultCode → BitVec 4
  | .illegalCmd => 1
  | .irReserved => 2
  | .irOpcodeRange => 3
  | .irSpongeSel => 4
  | .irCtxDepth => 5
  | .irLoopDepth => 6
  | .arity => 7
  | .parse => 8
  | .text => 9
  | .internal => 10
  | .tooLong => 11
  | .halted => 12

/-- The status of a response (R71, R161): 0 is OK. -/
def responseStatus : Response → BitVec 4
  | .ok _ => 0
  | .fault code => faultStatus code

/-- The payload of a response (R71): present exactly when the status is OK. -/
def responsePayload : Response → Option OkPayload
  | .ok payload => some payload
  | .fault _ => none

/-- `rsp <- r`: the one response of the operation in progress (R10, R71). -/
def respond (r : Response) (s : State) : State := { s with responses := s.responses ++ [r] }

/-- `emit DIAG(F)` (R171, R178): one record on the side channel to the host, its content a free value (log 4). -/
def emitDiag (code : FaultCode) (s : State) : State :=
  { s with
    diags := s.diags ++ [⟨code, Config.diagContent s.draws (faultStatus code)⟩]
    draws := s.draws + 1 }

/-- The first line of fault entry (R171): the record, when the handler is installed; ERR_HALTED emits none. -/
def diagnose (code : FaultCode) (s : State) : State :=
  if s.hook = true ∧ code ≠ .halted then emitDiag code s else s

/-- The second line of fault entry (R171): the abort, under ABORT_ON_DEFECT; ERR_HALTED sets nothing. -/
def haltOnDefect (code : FaultCode) (s : State) : State :=
  if s.params.abortOnDefect = true ∧ code ≠ .halted then setHalted s else s

/-- TAKING A FAULT, the whole of `raise F` (R10, R171): the diagnostic record, the abort, the response with the code and
no payload. Nothing is saved, because there is nothing to resume. -/
def raise (code : FaultCode) (s : State) : State :=
  respond (.fault code) (haltOnDefect code (diagnose code s))

/-- The end of an operation (R160): its complete answer, or the fault it raises. -/
def finish (answer : Except FaultCode OkPayload) (s : State) : State :=
  match answer with
  | .ok payload => respond (.ok payload) s
  | .error code => raise code s

/-- The halt gate (R180) before the operation `body`. -/
def gated (body : State → State) (s : State) : State :=
  if s.halted = true then raise .halted s else body s

/-- One operation that computes an answer and changes no state of its own: the gate, then the answer or its fault (R164,
R180). Every operation but INIT_HOOK is one. -/
def perform (answer : Except FaultCode OkPayload) (s : State) : Host.Outcome State Fault Refusal :=
  .next (gated (finish answer) s)

/-- Reset of an idle block (R190, R31): both state bits 0. The configuration is not changed, and what the host has seen
and has still to issue is not the block's. -/
def resetBlock (s : State) : State := clearCsr s

/-- Reset in the middle of an operation (R190): the operation that would have led from `s` to `t` is abandoned; it gives no
response and keeps no effect. Whether its diagnostic record, if it had one, was already emitted is a free value (log 9). -/
def abandon (s t : State) : State :=
  { resetBlock s with
    diags := if Config.abandonedDiagSeen s.draws = true then t.diags else s.diags
    draws := t.draws + 1 }

end Sys2Proof.Machine
end

