-- ==== Sys2Proof/Machine/Adapter.lean ====
section
/-! DEFINITION. The adapter unit (41_hash_adapter.md): RESCUE_V1, RESCUE_V2, RESCUE_V3. What each answers is a function of
the collaborators, the configuration and the payload (R130); the collaborators are an argument (R30). -/

namespace Sys2Proof.Machine

/-- What RESCUE_V1 answers (R124): parse four u128, lay them into 64 bytes, hash once, check the size, answer the digest. -/
def rescueV1Answer {FE : Type} (c : Collaborators FE) (p : Params) (text : List Byte) : Except FaultCode OkPayload :=
  match parseText p Config.v1Arity Config.v1TokenBits text with
  | .error code => .error code
  | .ok v =>
    let d := c.hBytes (hashBuffer v)
    if d.length = Config.digestBytes then .ok (.bytes d) else .error .internal

/-- What RESCUE_V2 answers (R126): parse eight u64, make each a field element, hash once, check the size, answer each
element's integer. -/
def rescueV2Answer {FE : Type} (c : Collaborators FE) (p : Params) (text : List Byte) : Except FaultCode OkPayload :=
  match parseText p Config.v2Arity Config.v2TokenBits text with
  | .error code => .error code
  | .ok v =>
    let d := c.hSponge (v.map c.feFromU64)
    if d.length = Config.v2DigestElems then .ok (.integers (d.map c.feToU64)) else .error .internal

/-- What RESCUE_V3 answers (R127): the length gate, hash the payload itself, check the size, check that the digest is
text, answer the same bytes. -/
def rescueV3Answer {FE : Type} (c : Collaborators FE) (p : Params) (payload : List Byte) : Except FaultCode OkPayload :=
  if tooLong p payload = true then .error .tooLong
  else
    let d := c.hBytes payload
    if d.length ≠ Config.digestBytes then .error .internal
    else if textValid p.textRule d = true then .ok (.text d)
    else .error .text

/-- RESCUE_V1 (R124). -/
def execRescueV1 (data : List Byte) (s : State) : Host.Outcome State Fault Refusal :=
  perform (rescueV1Answer Config.collaborators s.params data) s

/-- RESCUE_V2 (R126). -/
def execRescueV2 (data : List Byte) (s : State) : Host.Outcome State Fault Refusal :=
  perform (rescueV2Answer Config.collaborators s.params data) s

/-- RESCUE_V3 (R127). -/
def execRescueV3 (data : List Byte) (s : State) : Host.Outcome State Fault Refusal :=
  perform (rescueV3Answer Config.collaborators s.params data) s

end Sys2Proof.Machine
end

