-- ==== Sys2Proof/Machine/IrUnit.lean ====
section
/-! DEFINITION. The IR unit (40_ir_codec.md): IRDEC and IRENC. -/

namespace Sys2Proof.Machine

/-- The range tests IRDEC and IRENC share, in their order (R101, R106, R164): the first that fails is the one reported. -/
def checkFields (p : Params) (f : IrFields) : Except FaultCode IrFields :=
  if f.cf.toNat ≥ Config.numCfOps ∨ f.ld.toNat ≥ Config.numLdOps ∨ f.hd.toNat ≥ Config.numHdOps then
    .error .irOpcodeRange
  else if f.s.toNat > p.spongeSelMax.val then .error .irSpongeSel
  else if f.ctx > Config.maxContextDepth then .error .irCtxDepth
  else if f.loop > Config.maxLoopDepth then .error .irLoopDepth
  else .ok f

/-- What IRDEC answers (R101): the reserved test first (R102), then the range tests, then the seven fields. A function of
the word and the configuration alone (R109). -/
def irdecAnswer (p : Params) (w : Nat) : Except FaultCode OkPayload :=
  if reservedBits p w ≠ 0 then .error .irReserved
  else
    match checkFields p (extractFields p w) with
    | .error code => .error code
    | .ok f => .ok (.fields f)

/-- What IRENC answers (R106): the range tests, then the assembled word. -/
def irencAnswer (p : Params) (f : IrFields) : Except FaultCode OkPayload :=
  match checkFields p f with
  | .error code => .error code
  | .ok f => .ok (.word (assembleFields p f))

/-- IRDEC (R101). -/
def execIrdec (w : Nat) (s : State) : Host.Outcome State Fault Refusal := perform (irdecAnswer s.params w) s

/-- IRENC (R106). -/
def execIrenc (f : IrFields) (s : State) : Host.Outcome State Fault Refusal := perform (irencAnswer s.params f) s

end Sys2Proof.Machine
end

