-- ==== Sys2Proof/Machine/IrRows.lean ====
section
/-! DEFINITION. The rows of the table's IR32 format (R73, R75): the IR word as a whole, and the words that name one opcode
value. The block decodes such a word and gives the value it names no effect (R5, R143, R144, R145): the meaning of a row
is IRDEC on a word of the row's form. -/

namespace Sys2Proof.Machine

/-- IRDEC of a word whose opcode field `r` holds `k` (R75, R101): the number is returned to the host and does nothing. -/
def decodeOpcodeRow (r : BitRange) (k w : Nat) (s : State) : Host.Outcome State Fault Refusal :=
  perform (irdecAnswer s.params (withField r k w)) s

/-- IR: the word as a whole (R101). -/
def execIr (w : Nat) (s : State) : Host.Outcome State Fault Refusal := perform (irdecAnswer s.params w) s

/-- CF0: control-flow operation number 0, decoded and without effect (R75, R143). -/
def execCf0 (w : Nat) (s : State) : Host.Outcome State Fault Refusal :=
  decodeOpcodeRow Config.cfOpBitsRange 0 w s

/-- CF1: control-flow operation number 1, decoded and without effect (R75, R143). -/
def execCf1 (w : Nat) (s : State) : Host.Outcome State Fault Refusal :=
  decodeOpcodeRow Config.cfOpBitsRange 1 w s

/-- CF2: control-flow operation number 2, decoded and without effect (R75, R143). -/
def execCf2 (w : Nat) (s : State) : Host.Outcome State Fault Refusal :=
  decodeOpcodeRow Config.cfOpBitsRange 2 w s

/-- CF3: control-flow operation number 3, decoded and without effect (R75, R143). -/
def execCf3 (w : Nat) (s : State) : Host.Outcome State Fault Refusal :=
  decodeOpcodeRow Config.cfOpBitsRange 3 w s

/-- CF4: control-flow operation number 4, decoded and without effect (R75, R143). -/
def execCf4 (w : Nat) (s : State) : Host.Outcome State Fault Refusal :=
  decodeOpcodeRow Config.cfOpBitsRange 4 w s

/-- CF5: control-flow operation number 5, decoded and without effect (R75, R143). -/
def execCf5 (w : Nat) (s : State) : Host.Outcome State Fault Refusal :=
  decodeOpcodeRow Config.cfOpBitsRange 5 w s

/-- CF6: control-flow operation number 6, decoded and without effect (R75, R143). -/
def execCf6 (w : Nat) (s : State) : Host.Outcome State Fault Refusal :=
  decodeOpcodeRow Config.cfOpBitsRange 6 w s

/-- CF7: control-flow operation number 7, decoded and without effect (R75, R143). -/
def execCf7 (w : Nat) (s : State) : Host.Outcome State Fault Refusal :=
  decodeOpcodeRow Config.cfOpBitsRange 7 w s

/-- LD0: stack-load operation number 0, decoded and without effect (R75, R144). -/
def execLd0 (w : Nat) (s : State) : Host.Outcome State Fault Refusal :=
  decodeOpcodeRow Config.ldOpBitsRange 0 w s

/-- LD1: stack-load operation number 1, decoded and without effect (R75, R144). -/
def execLd1 (w : Nat) (s : State) : Host.Outcome State Fault Refusal :=
  decodeOpcodeRow Config.ldOpBitsRange 1 w s

/-- LD2: stack-load operation number 2, decoded and without effect (R75, R144). -/
def execLd2 (w : Nat) (s : State) : Host.Outcome State Fault Refusal :=
  decodeOpcodeRow Config.ldOpBitsRange 2 w s

/-- LD3: stack-load operation number 3, decoded and without effect (R75, R144). -/
def execLd3 (w : Nat) (s : State) : Host.Outcome State Fault Refusal :=
  decodeOpcodeRow Config.ldOpBitsRange 3 w s

/-- LD4: stack-load operation number 4, decoded and without effect (R75, R144). -/
def execLd4 (w : Nat) (s : State) : Host.Outcome State Fault Refusal :=
  decodeOpcodeRow Config.ldOpBitsRange 4 w s

/-- LD5: stack-load operation number 5, decoded and without effect (R75, R144). -/
def execLd5 (w : Nat) (s : State) : Host.Outcome State Fault Refusal :=
  decodeOpcodeRow Config.ldOpBitsRange 5 w s

/-- LD6: stack-load operation number 6, decoded and without effect (R75, R144). -/
def execLd6 (w : Nat) (s : State) : Host.Outcome State Fault Refusal :=
  decodeOpcodeRow Config.ldOpBitsRange 6 w s

/-- LD7: stack-load operation number 7, decoded and without effect (R75, R144). -/
def execLd7 (w : Nat) (s : State) : Host.Outcome State Fault Refusal :=
  decodeOpcodeRow Config.ldOpBitsRange 7 w s

/-- LD8: stack-load operation number 8, decoded and without effect (R75, R144). -/
def execLd8 (w : Nat) (s : State) : Host.Outcome State Fault Refusal :=
  decodeOpcodeRow Config.ldOpBitsRange 8 w s

/-- LD9: stack-load operation number 9, decoded and without effect (R75, R144). -/
def execLd9 (w : Nat) (s : State) : Host.Outcome State Fault Refusal :=
  decodeOpcodeRow Config.ldOpBitsRange 9 w s

/-- LD10: stack-load operation number 10, decoded and without effect (R75, R144). -/
def execLd10 (w : Nat) (s : State) : Host.Outcome State Fault Refusal :=
  decodeOpcodeRow Config.ldOpBitsRange 10 w s

/-- LD11: stack-load operation number 11, decoded and without effect (R75, R144). -/
def execLd11 (w : Nat) (s : State) : Host.Outcome State Fault Refusal :=
  decodeOpcodeRow Config.ldOpBitsRange 11 w s

/-- LD12: stack-load operation number 12, decoded and without effect (R75, R144). -/
def execLd12 (w : Nat) (s : State) : Host.Outcome State Fault Refusal :=
  decodeOpcodeRow Config.ldOpBitsRange 12 w s

/-- LD13: stack-load operation number 13, decoded and without effect (R75, R144). -/
def execLd13 (w : Nat) (s : State) : Host.Outcome State Fault Refusal :=
  decodeOpcodeRow Config.ldOpBitsRange 13 w s

/-- LD14: stack-load operation number 14, decoded and without effect (R75, R144). -/
def execLd14 (w : Nat) (s : State) : Host.Outcome State Fault Refusal :=
  decodeOpcodeRow Config.ldOpBitsRange 14 w s

/-- LD15: stack-load operation number 15, decoded and without effect (R75, R144). -/
def execLd15 (w : Nat) (s : State) : Host.Outcome State Fault Refusal :=
  decodeOpcodeRow Config.ldOpBitsRange 15 w s

/-- LD16: stack-load operation number 16, decoded and without effect (R75, R144). -/
def execLd16 (w : Nat) (s : State) : Host.Outcome State Fault Refusal :=
  decodeOpcodeRow Config.ldOpBitsRange 16 w s

/-- LD17: stack-load operation number 17, decoded and without effect (R75, R144). -/
def execLd17 (w : Nat) (s : State) : Host.Outcome State Fault Refusal :=
  decodeOpcodeRow Config.ldOpBitsRange 17 w s

/-- LD18: stack-load operation number 18, decoded and without effect (R75, R144). -/
def execLd18 (w : Nat) (s : State) : Host.Outcome State Fault Refusal :=
  decodeOpcodeRow Config.ldOpBitsRange 18 w s

/-- LD19: stack-load operation number 19, decoded and without effect (R75, R144). -/
def execLd19 (w : Nat) (s : State) : Host.Outcome State Fault Refusal :=
  decodeOpcodeRow Config.ldOpBitsRange 19 w s

/-- LD20: stack-load operation number 20, decoded and without effect (R75, R144). -/
def execLd20 (w : Nat) (s : State) : Host.Outcome State Fault Refusal :=
  decodeOpcodeRow Config.ldOpBitsRange 20 w s

/-- LD21: stack-load operation number 21, decoded and without effect (R75, R144). -/
def execLd21 (w : Nat) (s : State) : Host.Outcome State Fault Refusal :=
  decodeOpcodeRow Config.ldOpBitsRange 21 w s

/-- LD22: stack-load operation number 22, decoded and without effect (R75, R144). -/
def execLd22 (w : Nat) (s : State) : Host.Outcome State Fault Refusal :=
  decodeOpcodeRow Config.ldOpBitsRange 22 w s

/-- LD23: stack-load operation number 23, decoded and without effect (R75, R144). -/
def execLd23 (w : Nat) (s : State) : Host.Outcome State Fault Refusal :=
  decodeOpcodeRow Config.ldOpBitsRange 23 w s

/-- LD24: stack-load operation number 24, decoded and without effect (R75, R144). -/
def execLd24 (w : Nat) (s : State) : Host.Outcome State Fault Refusal :=
  decodeOpcodeRow Config.ldOpBitsRange 24 w s

/-- LD25: stack-load operation number 25, decoded and without effect (R75, R144). -/
def execLd25 (w : Nat) (s : State) : Host.Outcome State Fault Refusal :=
  decodeOpcodeRow Config.ldOpBitsRange 25 w s

/-- LD26: stack-load operation number 26, decoded and without effect (R75, R144). -/
def execLd26 (w : Nat) (s : State) : Host.Outcome State Fault Refusal :=
  decodeOpcodeRow Config.ldOpBitsRange 26 w s

/-- LD27: stack-load operation number 27, decoded and without effect (R75, R144). -/
def execLd27 (w : Nat) (s : State) : Host.Outcome State Fault Refusal :=
  decodeOpcodeRow Config.ldOpBitsRange 27 w s

/-- LD28: stack-load operation number 28, decoded and without effect (R75, R144). -/
def execLd28 (w : Nat) (s : State) : Host.Outcome State Fault Refusal :=
  decodeOpcodeRow Config.ldOpBitsRange 28 w s

/-- LD29: stack-load operation number 29, decoded and without effect (R75, R144). -/
def execLd29 (w : Nat) (s : State) : Host.Outcome State Fault Refusal :=
  decodeOpcodeRow Config.ldOpBitsRange 29 w s

/-- LD30: stack-load operation number 30, decoded and without effect (R75, R144). -/
def execLd30 (w : Nat) (s : State) : Host.Outcome State Fault Refusal :=
  decodeOpcodeRow Config.ldOpBitsRange 30 w s

/-- LD31: stack-load operation number 31, decoded and without effect (R75, R144). -/
def execLd31 (w : Nat) (s : State) : Host.Outcome State Fault Refusal :=
  decodeOpcodeRow Config.ldOpBitsRange 31 w s

/-- HD0: hash-domain operation number 0, decoded and without effect (R75, R145). -/
def execHd0 (w : Nat) (s : State) : Host.Outcome State Fault Refusal :=
  decodeOpcodeRow Config.hdOpBitsRange 0 w s

/-- HD1: hash-domain operation number 1, decoded and without effect (R75, R145). -/
def execHd1 (w : Nat) (s : State) : Host.Outcome State Fault Refusal :=
  decodeOpcodeRow Config.hdOpBitsRange 1 w s

/-- HD2: hash-domain operation number 2, decoded and without effect (R75, R145). -/
def execHd2 (w : Nat) (s : State) : Host.Outcome State Fault Refusal :=
  decodeOpcodeRow Config.hdOpBitsRange 2 w s

/-- HD3: hash-domain operation number 3, decoded and without effect (R75, R145). -/
def execHd3 (w : Nat) (s : State) : Host.Outcome State Fault Refusal :=
  decodeOpcodeRow Config.hdOpBitsRange 3 w s

end Sys2Proof.Machine
end

