-- ==== Sys2Proof/Machine/System.lean ====
section
/-! DEFINITION. The system operations (42_system.md): INIT_HOOK and the two illegal command codes. -/

namespace Sys2Proof.Machine

/-- INIT_HOOK (R150): `HOOK <- 1` and OK with no payload, after the gate (R180). -/
def execInitHook (s : State) : Host.Outcome State Fault Refusal :=
  .next (gated (fun s => respond (.ok .absent) (setHook s)) s)

/-- Command code 6 (R77, R151): ERR_ILLEGAL_CMD; the payload is ignored. -/
def execIllegalCmd6 (_payload : Payload) (s : State) : Host.Outcome State Fault Refusal :=
  perform (.error .illegalCmd) s

/-- Command code 7 (R77, R151): ERR_ILLEGAL_CMD; the payload is ignored. -/
def execIllegalCmd7 (_payload : Payload) (s : State) : Host.Outcome State Fault Refusal :=
  perform (.error .illegalCmd) s

end Sys2Proof.Machine
end

