-- ==== Sys2Proof/Machine/Dispatch.lean ====
section
/-! DEFINITION. One arm for each instruction, each one direct call of its meaning. -/

namespace Sys2Proof.Machine

def exec (i : Instr) (s : State) : Host.Outcome State Fault Refusal :=
  match i with
  | .irdec w => Sys2Proof.Machine.execIrdec w s
  | .irenc f => Sys2Proof.Machine.execIrenc f s
  | .rescueV1 data => Sys2Proof.Machine.execRescueV1 data s
  | .rescueV2 data => Sys2Proof.Machine.execRescueV2 data s
  | .rescueV3 data => Sys2Proof.Machine.execRescueV3 data s
  | .initHook => Sys2Proof.Machine.execInitHook s
  | .illegalCmd6 payload => Sys2Proof.Machine.execIllegalCmd6 payload s
  | .illegalCmd7 payload => Sys2Proof.Machine.execIllegalCmd7 payload s
  | .ir w => Sys2Proof.Machine.execIr w s
  | .cf0 w => Sys2Proof.Machine.execCf0 w s
  | .cf1 w => Sys2Proof.Machine.execCf1 w s
  | .cf2 w => Sys2Proof.Machine.execCf2 w s
  | .cf3 w => Sys2Proof.Machine.execCf3 w s
  | .cf4 w => Sys2Proof.Machine.execCf4 w s
  | .cf5 w => Sys2Proof.Machine.execCf5 w s
  | .cf6 w => Sys2Proof.Machine.execCf6 w s
  | .cf7 w => Sys2Proof.Machine.execCf7 w s
  | .ld0 w => Sys2Proof.Machine.execLd0 w s
  | .ld1 w => Sys2Proof.Machine.execLd1 w s
  | .ld2 w => Sys2Proof.Machine.execLd2 w s
  | .ld3 w => Sys2Proof.Machine.execLd3 w s
  | .ld4 w => Sys2Proof.Machine.execLd4 w s
  | .ld5 w => Sys2Proof.Machine.execLd5 w s
  | .ld6 w => Sys2Proof.Machine.execLd6 w s
  | .ld7 w => Sys2Proof.Machine.execLd7 w s
  | .ld8 w => Sys2Proof.Machine.execLd8 w s
  | .ld9 w => Sys2Proof.Machine.execLd9 w s
  | .ld10 w => Sys2Proof.Machine.execLd10 w s
  | .ld11 w => Sys2Proof.Machine.execLd11 w s
  | .ld12 w => Sys2Proof.Machine.execLd12 w s
  | .ld13 w => Sys2Proof.Machine.execLd13 w s
  | .ld14 w => Sys2Proof.Machine.execLd14 w s
  | .ld15 w => Sys2Proof.Machine.execLd15 w s
  | .ld16 w => Sys2Proof.Machine.execLd16 w s
  | .ld17 w => Sys2Proof.Machine.execLd17 w s
  | .ld18 w => Sys2Proof.Machine.execLd18 w s
  | .ld19 w => Sys2Proof.Machine.execLd19 w s
  | .ld20 w => Sys2Proof.Machine.execLd20 w s
  | .ld21 w => Sys2Proof.Machine.execLd21 w s
  | .ld22 w => Sys2Proof.Machine.execLd22 w s
  | .ld23 w => Sys2Proof.Machine.execLd23 w s
  | .ld24 w => Sys2Proof.Machine.execLd24 w s
  | .ld25 w => Sys2Proof.Machine.execLd25 w s
  | .ld26 w => Sys2Proof.Machine.execLd26 w s
  | .ld27 w => Sys2Proof.Machine.execLd27 w s
  | .ld28 w => Sys2Proof.Machine.execLd28 w s
  | .ld29 w => Sys2Proof.Machine.execLd29 w s
  | .ld30 w => Sys2Proof.Machine.execLd30 w s
  | .ld31 w => Sys2Proof.Machine.execLd31 w s
  | .hd0 w => Sys2Proof.Machine.execHd0 w s
  | .hd1 w => Sys2Proof.Machine.execHd1 w s
  | .hd2 w => Sys2Proof.Machine.execHd2 w s
  | .hd3 w => Sys2Proof.Machine.execHd3 w s

end Sys2Proof.Machine
end

