-- ==== Sys2Proof/Machine/Port.lean ====
section
/-! DEFINITION. The host port (R70, R190, R200): what one event of the host's does. -/

namespace Sys2Proof.Machine

/-- A request the port takes: the instruction it decodes to, executed; a request the format excludes stops (R200). -/
def serveRequest (r : Request) (s : State) : Host.Outcome State Fault Refusal :=
  match decode s.params r with
  | .ok i => exec i s
  | .error e => .fault (.excludedRequest e)

/-- A request that reset abandons before its response (R190). -/
def serveAbandoned (r : Request) (s : State) : Host.Outcome State Fault Refusal :=
  match serveRequest r s with
  | .next t => .next (abandon s t)
  | .fault e => .fault e
  | .refused e => .refused e

/-- One event of the host's. -/
def serve (event : HostEvent) (s : State) : Host.Outcome State Fault Refusal :=
  match event with
  | .request r => serveRequest r s
  | .abandoned r => serveAbandoned r s
  | .reset => .next (resetBlock s)

/-- One step of a block that was built (R199): the oldest event of the port, taken off it and served; with none waiting the
block is idle (R179) and nothing changes. -/
def takeEvent (s : State) : Host.Outcome State Fault Refusal :=
  match s.port with
  | [] => .next s
  | event :: rest => serve event { s with port := rest }

/-- Put a request at the head of the port, so that the next step takes it. -/
def offerRequest (r : Request) (s : State) : State := { s with port := .request r :: s.port }

end Sys2Proof.Machine
end

