-- ==== Sys2Proof/Machine/Step.lean ====
section
/-! DEFINITION. The step, and the host's way to have one word of the opcode table run next. -/

namespace Sys2Proof.Machine

/-- One step (R199): one whole operation, a reset, or nothing when the block is idle. A configuration that breaks a layout
assertion has no run-time behaviour (R108, R197). -/
def step (s : State) : Host.Outcome State Fault Refusal :=
  if layoutOk s.params = true then takeEvent s else .refused .layoutDefect

/-- The state with the request of a word of the opcode table waiting at the head of the port (logs 1 and 8). -/
def State.withFetchWord (s : State) (nbits w : Nat) : State := offerRequest (tableRequest nbits w) s

end Sys2Proof.Machine
end

