-- ==== Sys2Proof/Safety.lean ====
section
/-! DEFINITION. What counts as a legal word, a sound response and a sound run, in the terms the statements use. Nothing here
is state of the block or read by it. -/

namespace Sys2Proof

open Sys2Proof.Machine

/-- The layout of R73 at its defaults (R7): a 32-bit word, `ctx_depth` at [15,20), `loop_depth` at [20,24). -/
abbrev DefaultLayout (p : Params) : Prop := p.irWidth = 32 ∧ p.ctxDepthRange = ⟨15, 20⟩ ∧ p.loopDepthRange = ⟨20, 24⟩

/-- Fields no range test rejects (R101, R103, R105). -/
abbrev LegalFields (p : Params) (f : IrFields) : Prop :=
  f.s.toNat ≤ p.spongeSelMax.val ∧ f.ctx ≤ 16 ∧ f.loop ≤ 8

/-- An IR word a decoder must not reject (R76): within IR_WIDTH, reserved bits zero, fields in range. -/
abbrev LegalWord (p : Params) (w : Nat) : Prop :=
  w < 2 ^ p.irWidth ∧ reservedBits p w = 0 ∧ LegalFields p (extractFields p w)

/-- A complete, correctly sized answer (R71, R160). -/
abbrev SoundPayload (p : Params) : OkPayload → Prop
  | .absent => True
  | .fields f => f.fits p = true ∧ LegalFields p f
  | .word w => LegalWord p w
  | .bytes d => d.length = 32
  | .integers v => v.length = 4
  | .text d => d.length = 32 ∧ textValid p.textRule d = true

/-- Every response given so far is a fault or a complete, correctly sized answer (R71, R160). -/
def ResponsesSound (s : State) : Prop := ∀ payload, Response.ok payload ∈ s.responses → SoundPayload s.params payload

/-- HALTED is 0 at all times when ABORT_ON_DEFECT is false (R27). -/
abbrev HaltedOnlyUnderAbort (s : State) : Prop := s.params.abortOnDefect = false → s.halted = false

/-- What the host sees of a state and what decides its next responses: everything but HOOK, the diagnostic records and the
count of free values (R26, R178). -/
abbrev SameButForDiagnostics (s t : State) : Prop :=
  s.halted = t.halted ∧ s.params = t.params ∧ s.port = t.port ∧ s.responses = t.responses

/-- The statuses each operation can answer (R161, the column "raised by"). -/
def mayAnswer : Instr → List (BitVec 4)
  | .irenc _ => [0, 3, 4, 5, 6, 12]
  | .rescueV1 _ => [0, 7, 8, 10, 11, 12]
  | .rescueV2 _ => [0, 7, 8, 10, 11, 12]
  | .rescueV3 _ => [0, 9, 10, 11, 12]
  | .initHook => [0, 12]
  | .illegalCmd6 _ => [1, 12]
  | .illegalCmd7 _ => [1, 12]
  | .irdec _ => [0, 2, 3, 4, 5, 6, 12]
  | .ir _ => [0, 2, 3, 4, 5, 6, 12]
  | .cf0 _ => [0, 2, 3, 4, 5, 6, 12]
  | .cf1 _ => [0, 2, 3, 4, 5, 6, 12]
  | .cf2 _ => [0, 2, 3, 4, 5, 6, 12]
  | .cf3 _ => [0, 2, 3, 4, 5, 6, 12]
  | .cf4 _ => [0, 2, 3, 4, 5, 6, 12]
  | .cf5 _ => [0, 2, 3, 4, 5, 6, 12]
  | .cf6 _ => [0, 2, 3, 4, 5, 6, 12]
  | .cf7 _ => [0, 2, 3, 4, 5, 6, 12]
  | .ld0 _ => [0, 2, 3, 4, 5, 6, 12]
  | .ld1 _ => [0, 2, 3, 4, 5, 6, 12]
  | .ld2 _ => [0, 2, 3, 4, 5, 6, 12]
  | .ld3 _ => [0, 2, 3, 4, 5, 6, 12]
  | .ld4 _ => [0, 2, 3, 4, 5, 6, 12]
  | .ld5 _ => [0, 2, 3, 4, 5, 6, 12]
  | .ld6 _ => [0, 2, 3, 4, 5, 6, 12]
  | .ld7 _ => [0, 2, 3, 4, 5, 6, 12]
  | .ld8 _ => [0, 2, 3, 4, 5, 6, 12]
  | .ld9 _ => [0, 2, 3, 4, 5, 6, 12]
  | .ld10 _ => [0, 2, 3, 4, 5, 6, 12]
  | .ld11 _ => [0, 2, 3, 4, 5, 6, 12]
  | .ld12 _ => [0, 2, 3, 4, 5, 6, 12]
  | .ld13 _ => [0, 2, 3, 4, 5, 6, 12]
  | .ld14 _ => [0, 2, 3, 4, 5, 6, 12]
  | .ld15 _ => [0, 2, 3, 4, 5, 6, 12]
  | .ld16 _ => [0, 2, 3, 4, 5, 6, 12]
  | .ld17 _ => [0, 2, 3, 4, 5, 6, 12]
  | .ld18 _ => [0, 2, 3, 4, 5, 6, 12]
  | .ld19 _ => [0, 2, 3, 4, 5, 6, 12]
  | .ld20 _ => [0, 2, 3, 4, 5, 6, 12]
  | .ld21 _ => [0, 2, 3, 4, 5, 6, 12]
  | .ld22 _ => [0, 2, 3, 4, 5, 6, 12]
  | .ld23 _ => [0, 2, 3, 4, 5, 6, 12]
  | .ld24 _ => [0, 2, 3, 4, 5, 6, 12]
  | .ld25 _ => [0, 2, 3, 4, 5, 6, 12]
  | .ld26 _ => [0, 2, 3, 4, 5, 6, 12]
  | .ld27 _ => [0, 2, 3, 4, 5, 6, 12]
  | .ld28 _ => [0, 2, 3, 4, 5, 6, 12]
  | .ld29 _ => [0, 2, 3, 4, 5, 6, 12]
  | .ld30 _ => [0, 2, 3, 4, 5, 6, 12]
  | .ld31 _ => [0, 2, 3, 4, 5, 6, 12]
  | .hd0 _ => [0, 2, 3, 4, 5, 6, 12]
  | .hd1 _ => [0, 2, 3, 4, 5, 6, 12]
  | .hd2 _ => [0, 2, 3, 4, 5, 6, 12]
  | .hd3 _ => [0, 2, 3, 4, 5, 6, 12]

/-- The fixed-width way to take one more digit of a token (R140): fault when ten times the accumulator plus the digit would
leave `W` bits. -/
def accumulateDigit (W acc digit : Nat) : Option Nat :=
  if acc > (2 ^ W - 1 - digit) / 10 then none else some (10 * acc + digit)

/-- The fixed-width accumulation of a token's digits in order (R140). -/
def accumulateToken (W : Nat) : Nat → List Byte → Option Nat
  | acc, [] => some acc
  | acc, b :: rest =>
    match accumulateDigit W acc (b.toNat - 0x30) with
    | none => none
    | some acc => accumulateToken W acc rest

/-- The word a row of the table's IR32 format carries, and `none` for the eight commands (R75). -/
def irWordOf : Instr → Option Nat
  | .irdec _ => none
  | .irenc _ => none
  | .rescueV1 _ => none
  | .rescueV2 _ => none
  | .rescueV3 _ => none
  | .initHook => none
  | .illegalCmd6 _ => none
  | .illegalCmd7 _ => none
  | .ir w => some w
  | .cf0 w => some w
  | .cf1 w => some w
  | .cf2 w => some w
  | .cf3 w => some w
  | .cf4 w => some w
  | .cf5 w => some w
  | .cf6 w => some w
  | .cf7 w => some w
  | .ld0 w => some w
  | .ld1 w => some w
  | .ld2 w => some w
  | .ld3 w => some w
  | .ld4 w => some w
  | .ld5 w => some w
  | .ld6 w => some w
  | .ld7 w => some w
  | .ld8 w => some w
  | .ld9 w => some w
  | .ld10 w => some w
  | .ld11 w => some w
  | .ld12 w => some w
  | .ld13 w => some w
  | .ld14 w => some w
  | .ld15 w => some w
  | .ld16 w => some w
  | .ld17 w => some w
  | .ld18 w => some w
  | .ld19 w => some w
  | .ld20 w => some w
  | .ld21 w => some w
  | .ld22 w => some w
  | .ld23 w => some w
  | .ld24 w => some w
  | .ld25 w => some w
  | .ld26 w => some w
  | .ld27 w => some w
  | .ld28 w => some w
  | .ld29 w => some w
  | .ld30 w => some w
  | .ld31 w => some w
  | .hd0 w => some w
  | .hd1 w => some w
  | .hd2 w => some w
  | .hd3 w => some w

/-- The rows CF0 to CF7 on the word `w`, in the order of their numbers (R75). -/
def cfRows (w : Nat) : List Instr :=
  [.cf0 w, .cf1 w, .cf2 w, .cf3 w, .cf4 w, .cf5 w, .cf6 w, .cf7 w]

/-- The rows LD0 to LD31 on the word `w`, in the order of their numbers (R75). -/
def ldRows (w : Nat) : List Instr :=
  [.ld0 w, .ld1 w, .ld2 w, .ld3 w, .ld4 w, .ld5 w, .ld6 w, .ld7 w,
    .ld8 w, .ld9 w, .ld10 w, .ld11 w, .ld12 w, .ld13 w, .ld14 w, .ld15 w,
    .ld16 w, .ld17 w, .ld18 w, .ld19 w, .ld20 w, .ld21 w, .ld22 w, .ld23 w,
    .ld24 w, .ld25 w, .ld26 w, .ld27 w, .ld28 w, .ld29 w, .ld30 w, .ld31 w]

/-- The rows HD0 to HD3 on the word `w`, in the order of their numbers (R75). -/
def hdRows (w : Nat) : List Instr :=
  [.hd0 w, .hd1 w, .hd2 w, .hd3 w]

end Sys2Proof
end

