-- ==== Sys2Proof/Certificates/Slice0/Obligations.lean ====
section
/-! DEFINITION. The statements for the provers. Each docstring says which rule of spec/ it formalises and what it claims. -/

open Sys2Proof Sys2Proof.Machine

/-- Stated (R31). R31: after reset HOOK (CSR[0]) and HALTED (CSR[1]) are 0. The values of the model's own fields at reset
are in no statement. -/
def Obligations.ResetClearsBothStateBits : Prop :=
  State.reset.hook = false ∧ State.reset.halted = false ∧ csr State.reset = 0

/-- Derived (R22, R70, R199). When the block is built within its layout assertions and the oldest event of the port is a
request that decodes to i, step is exec of i on the state with that request taken off the port, and nothing else. -/
def Obligations.StepRunsDecodedRequest : Prop :=
  ∀ (s : State) (r : Request) (rest : List HostEvent) (i : Instr), layoutOk s.params = true →
    s.port = .request r :: rest → decode s.params r = .ok i → step s = exec i { s with port := rest }

/-- Derived (R190, R199). A reset event leaves HOOK = 0 and HALTED = 0 and changes nothing but the two bits (and the port,
from which it is taken). A request abandoned by reset, whatever instruction it is, ends in a next state with HOOK = 0,
HALTED = 0, the same configuration and NO response. R190 does not say what becomes of a diagnostic record of the
abandoned operation: that the earlier records are kept and at most one more is seen is the model's choice (log 9). -/
def Obligations.ResetEventClearsCsrAndAbandonsOperation : Prop :=
  (∀ (s : State) (rest : List HostEvent), layoutOk s.params = true → s.port = .reset :: rest →
      step s = .next { s with port := rest, hook := false, halted := false }) ∧
  (∀ (s : State) (r : Request) (rest : List HostEvent), layoutOk s.params = true → r.fits s.params = true →
      s.port = .abandoned r :: rest →
      ∃ t, step s = .next t ∧ t.hook = false ∧ t.halted = false ∧ t.params = s.params ∧ t.port = rest ∧
        t.responses = s.responses ∧ s.diags <+: t.diags ∧ t.diags.length ≤ s.diags.length + 1)

/-- Derived (R108, R197, R200, U6). step answers a next state if and only if the layout assertions hold and the oldest
event, if it is a request (abandoned or not), fits the request format. No instruction and no operand value stops the
machine. That the model stops on excluded input is the model's choice (logs 10 and 11). -/
def Obligations.StepStopsOnlyOnExcludedInput : Prop :=
  ∀ s : State, (∃ t, step s = .next t) ↔
    (layoutOk s.params = true ∧ ∀ (r : Request) (rest : List HostEvent),
      (s.port = .request r :: rest ∨ s.port = .abandoned r :: rest) → r.fits s.params = true)

/-- Derived (R70, R72, R73, R75). For every configuration and every well-formed instruction, with every operand, decode
(encode i) = i. The reading mark that tells the rows of the IR32 format apart is the model's choice (log 6). -/
def Obligations.DecodeEncodeRoundTrip : Prop :=
  ∀ (p : Params) (i : Instr), i.wf p = true → decode p (encode i) = .ok i

/-- Derived (R70, R72, R77, R200). decode accepts a request if and only if it fits the request format; what it gives is
well formed, and encodes to the same command code. Requests it rejects are those R200 says cannot be issued (log 10). -/
def Obligations.DecoderAcceptsExactlyTheRequestFormat : Prop :=
  ∀ (p : Params) (r : Request), ((∃ i, decode p r = .ok i) ↔ r.fits p = true) ∧
    ∀ i, decode p r = .ok i → i.wf p = true ∧ (encode i).cmd = r.cmd

/-- Derived (R72, R75, R101). The command codes 0, 3, 5 and 7 of R72, and the words 0x000000A0 (CF5), 0x00001F00 (LD31),
0x00004000 (HD2) of the opcode table, decode to their instructions. The reading mark is the model's (log 6). -/
def Obligations.KnownRequestsDecode : Prop :=
  decode Config.defaults ⟨0b000, .word none 0x0041A2B3⟩ = .ok (.irdec 0x0041A2B3) ∧
  decode Config.defaults ⟨0b011, .data [0x31, 0x2C]⟩ = .ok (.rescueV2 [0x31, 0x2C]) ∧
  decode Config.defaults ⟨0b101, .absent⟩ = .ok .initHook ∧
  decode Config.defaults ⟨0b111, .data []⟩ = .ok (.illegalCmd7 (.data [])) ∧
  decode Config.defaults ⟨0b000, .word (some .cfOp) 0b00000000000000000000000010100000⟩ = .ok (.cf5 0xA0) ∧
  decode Config.defaults ⟨0b000, .word (some .ldOp) 0b00000000000000000001111100000000⟩ = .ok (.ld31 0x1F00) ∧
  decode Config.defaults ⟨0b000, .word (some .hdOp) 0b00000000000000000100000000000000⟩ = .ok (.hd2 0x4000)

/-- Stated (R108). Each opcode field is as wide as its constant says, 2^bits is its operation count and bits is ceil(log2
count); the sponge constants agree; in every configuration that layoutOk admits no two declared ranges overlap and the
widths sum to at most IR_WIDTH; and layoutOk admits every IR_WIDTH >= 24 with the default depth ranges. -/
def Obligations.LayoutAssertionsHold : Prop :=
  Config.cfOpBitsRange.width = Config.numCfOpBits ∧ Config.ldOpBitsRange.width = Config.numLdOpBits ∧
  Config.hdOpBitsRange.width = Config.numHdOpBits ∧
  2 ^ Config.numCfOpBits = Config.numCfOps ∧ 2 ^ Config.numLdOpBits = Config.numLdOps ∧
  2 ^ Config.numHdOpBits = Config.numHdOps ∧
  Config.numCfOpBits = Nat.clog 2 Config.numCfOps ∧ Config.numLdOpBits = Nat.clog 2 Config.numLdOps ∧
  Config.numHdOpBits = Nat.clog 2 Config.numHdOps ∧
  Config.hashStateWidth = Config.hashStateRate + Config.hashStateCapacity ∧
  Config.spongeWidth = Config.hashStateRate ∧ Config.spongeRange.width = Config.spongeWidth ∧
  (∀ p : Params, layoutOk p = true →
    (declaredRanges p).Pairwise (fun a b => ∀ k, ¬ (a.lo ≤ k ∧ k < a.hi ∧ b.lo ≤ k ∧ k < b.hi)) ∧
    ((declaredRanges p).map (fun r => r.hi - r.lo)).sum ≤ p.irWidth) ∧
  (∀ p : Params, 24 ≤ p.irWidth → p.ctxDepthRange = ⟨15, 20⟩ → p.loopDepthRange = ⟨20, 24⟩ → layoutOk p = true)

/-- Derived (R73, R102). In every configuration the layout assertions admit, bit b below IR_WIDTH is in the reserved mask
if and only if no declared range holds b; the mask has no bit at or above IR_WIDTH. At the defaults the mask is
0xFF000000. -/
def Obligations.ReservedBitsAreTheBitsOfNoField : Prop :=
  (∀ (p : Params) (b : Nat), layoutOk p = true →
    ((reservedMask p).testBit b = true ↔ b < p.irWidth ∧ ∀ r ∈ declaredRanges p, ¬ (r.lo ≤ b ∧ b < r.hi))) ∧
  reservedMask Config.defaults = 0xFF000000

/-- Stated (R101). Past the halt gate and at the default layout, IRDEC of any 32-bit word has the next state the rule's
pseudocode gives: the first of the five faults whose test holds is raised, in the order reserved, opcode, selector,
context depth, loop depth; otherwise the response is OK with the seven fields, and no state bit changes. -/
def Obligations.IrdecDecodesOrReportsFirstFault : Prop :=
  ∀ (w : Nat) (s : State), s.halted = false → DefaultLayout s.params → w < 2 ^ 32 →
    exec (.irdec w) s = .next (
      if w / 16777216 ≠ 0 then raise .irReserved s
      else if w / 32 % 8 ≥ 8 ∨ w / 256 % 32 ≥ 32 ∨ w / 8192 % 4 ≥ 4 then raise .irOpcodeRange s
      else if w / 2 % 16 > s.params.spongeSelMax.val then raise .irSpongeSel s
      else if w / 32768 % 32 > 16 then raise .irCtxDepth s
      else if w / 1048576 % 16 > 8 then raise .irLoopDepth s
      else respond (.ok (.fields
        ⟨BitVec.ofNat 1 (w % 2), BitVec.ofNat 4 (w / 2 % 16), BitVec.ofNat 3 (w / 32 % 8), BitVec.ofNat 5 (w / 256 % 32),
          BitVec.ofNat 2 (w / 8192 % 4), w / 32768 % 32, w / 1048576 % 16⟩)) s)

/-- Stated (R102). For IR_WIDTH >= 24 and the default depth ranges, a word of the register with any bit from 24 up set
raises ERR_IR_RESERVED whatever its fields hold, no other word does, and at IR_WIDTH = 24 none can. -/
def Obligations.IrdecReservedTestAtEveryWidth : Prop :=
  ∀ (w : Nat) (s : State), s.halted = false → 24 ≤ s.params.irWidth →
    s.params.ctxDepthRange = ⟨15, 20⟩ → s.params.loopDepthRange = ⟨20, 24⟩ → w < 2 ^ s.params.irWidth →
    (w / 2 ^ 24 ≠ 0 → exec (.irdec w) s = .next (raise .irReserved s)) ∧
    (irdecAnswer s.params w = .error .irReserved ↔ w / 2 ^ 24 ≠ 0) ∧
    (s.params.irWidth = 24 → irdecAnswer s.params w ≠ .error .irReserved)

/-- Stated (R103). For every pair of depths the fields can hold, at the default layout, IRDEC of the word with only those
depths and IRENC of the fields with only those depths answer OK when ctx <= 16 and loop <= 8, ERR_IR_CTX_DEPTH when
ctx is 17 to 31, and else ERR_IR_LOOP_DEPTH when loop is 9 to 15. -/
def Obligations.DepthBoundsAreInclusive : Prop :=
  ∀ (p : Params) (c l : Nat), DefaultLayout p → c < 32 → l < 16 →
    irdecAnswer p (32768 * c + 1048576 * l) =
      (if 17 ≤ c then .error .irCtxDepth else if 9 ≤ l then .error .irLoopDepth
       else .ok (.fields ⟨0, 0, 0, 0, 0, c, l⟩)) ∧
    irencAnswer p ⟨0, 0, 0, 0, 0, c, l⟩ =
      (if 17 ≤ c then .error .irCtxDepth else if 9 ≤ l then .error .irLoopDepth
       else .ok (.word (32768 * c + 1048576 * l)))

/-- Stated (R104). In every configuration, neither IRDEC of any word nor IRENC of any fields answers ERR_IR_OPCODE_RANGE. -/
def Obligations.OpcodeRangeFaultIsUnreachable : Prop :=
  ∀ (p : Params) (w : Nat) (f : IrFields),
    irdecAnswer p w ≠ .error .irOpcodeRange ∧ irencAnswer p f ≠ .error .irOpcodeRange

/-- Stated (R105). At the default layout, a word that IRDEC accepts is answered with sponge_sel = bits [1,5) as they
stand; a word with zero reserved bits whose selector is above SPONGE_SEL_MAX raises ERR_IR_SPONGE_SEL, and no other
word does; at SPONGE_SEL_MAX = 15 none does. -/
def Obligations.SpongeSelectorBoundedOnlyBySetting : Prop :=
  ∀ (p : Params) (w : Nat), DefaultLayout p → w < 2 ^ 32 →
    (∀ f, irdecAnswer p w = .ok (.fields f) → f.s.toNat = w / 2 % 16) ∧
    (irdecAnswer p w = .error .irSpongeSel ↔ w / 16777216 = 0 ∧ w / 2 % 16 > p.spongeSelMax.val) ∧
    (p.spongeSelMax = 15 → irdecAnswer p w ≠ .error .irSpongeSel)

/-- Stated (R76). At the default parameters: IRDEC faults on a 32-bit word exactly when a reserved bit is set, an opcode
field is at or above its count, the selector is above 15, ctx_depth is above 16 or loop_depth is above 8, and the
fault is that of a condition that holds; the number of words it accepts is 2*16*8*32*4*17*9 = 5,013,504; and a word
IRENC answers has its reserved bits zero. -/
def Obligations.IllegalIrWordsAndLegalWordCount : Prop :=
  (∀ w : Nat, w < 2 ^ 32 → ((∃ code, irdecAnswer Config.defaults w = .error code) ↔
    (w / 16777216 ≠ 0 ∨ (w / 32 % 8 ≥ 8 ∨ w / 256 % 32 ≥ 32 ∨ w / 8192 % 4 ≥ 4) ∨ w / 2 % 16 > 15 ∨
      w / 32768 % 32 > 16 ∨ w / 1048576 % 16 > 8))) ∧
  (∀ (w : Nat) (code : FaultCode), w < 2 ^ 32 → irdecAnswer Config.defaults w = .error code →
    (code = .irReserved ∧ w / 16777216 ≠ 0) ∨
    (code = .irOpcodeRange ∧ (w / 32 % 8 ≥ 8 ∨ w / 256 % 32 ≥ 32 ∨ w / 8192 % 4 ≥ 4)) ∨
    (code = .irSpongeSel ∧ w / 2 % 16 > 15) ∨ (code = .irCtxDepth ∧ w / 32768 % 32 > 16) ∨
    (code = .irLoopDepth ∧ w / 1048576 % 16 > 8)) ∧
  ((Finset.range (2 ^ 32)).filter (fun w => (irdecAnswer Config.defaults w).isOk = true)).card = 5013504 ∧
  (∀ (f : IrFields) (w : Nat), irencAnswer Config.defaults f = .ok (.word w) → w / 16777216 = 0)

/-- Stated (R106). Past the halt gate and at the default layout, IRENC of any fields has the next state the rule's
pseudocode gives: the first fault whose test holds, in the order opcode, selector, context depth, loop depth;
otherwise OK with the word n + 2s + 32cf + 256ld + 8192hd + 32768ctx + 1048576loop, computed in naturals. -/
def Obligations.IrencAssemblesOrReportsFirstFault : Prop :=
  ∀ (f : IrFields) (s : State), s.halted = false → DefaultLayout s.params →
    exec (.irenc f) s = .next (
      if f.cf.toNat ≥ 8 ∨ f.ld.toNat ≥ 32 ∨ f.hd.toNat ≥ 4 then raise .irOpcodeRange s
      else if f.s.toNat > s.params.spongeSelMax.val then raise .irSpongeSel s
      else if f.ctx > 16 then raise .irCtxDepth s
      else if f.loop > 8 then raise .irLoopDepth s
      else respond (.ok (.word (f.n.toNat + 2 * f.s.toNat + 32 * f.cf.toNat + 256 * f.ld.toNat + 8192 * f.hd.toNat
        + 32768 * f.ctx + 1048576 * f.loop))) s)

/-- Stated (R107). For fields f of their declared widths and words w of the register: (1) What IRENC answers for f, IRDEC
decodes to f. (2) What IRDEC answers for a word of the register, IRENC assembles to that word. (3) IRDEC is injective
on the words it accepts, and the words IRENC answers are exactly those. (4) IRENC faults on f with code c exactly when
some word with zero reserved bits whose fields are f makes IRDEC fault with c. -/
def Obligations.IrCodecRoundTrips : Prop :=
  ∀ p : Params, layoutOk p = true →
    (∀ (f : IrFields) (w : Nat), f.fits p = true → irencAnswer p f = .ok (.word w) → irdecAnswer p w = .ok (.fields f)) ∧
    (∀ (w : Nat) (f : IrFields), w < 2 ^ p.irWidth → irdecAnswer p w = .ok (.fields f) →
      irencAnswer p f = .ok (.word w)) ∧
    (∀ (v w : Nat) (f : IrFields), v < 2 ^ p.irWidth → w < 2 ^ p.irWidth → irdecAnswer p v = .ok (.fields f) →
      irdecAnswer p w = .ok (.fields f) → v = w) ∧
    (∀ w : Nat, (∃ f, f.fits p = true ∧ irencAnswer p f = .ok (.word w)) ↔
      w < 2 ^ p.irWidth ∧ ∃ f, irdecAnswer p w = .ok (.fields f)) ∧
    (∀ (f : IrFields) (code : FaultCode), f.fits p = true → (irencAnswer p f = .error code ↔
      ∃ w, w < 2 ^ p.irWidth ∧ extractFields p w = f ∧ reservedBits p w = 0 ∧ irdecAnswer p w = .error code))

/-- Derived (R75, R101, R143). CF0, CF1, CF2, CF3, CF4, CF5, CF6, CF7: for the row number k, on a well-formed word of the
row whose selector and depths are in range, past the halt gate and at the default layout, exec answers OK with the
seven fields, the control-flow field being k, and changes nothing else: the numbered operation has no effect in the
block. That a row is an IRDEC request read by one field is the model's choice (log 6). -/
def Obligations.ControlFlowRowsDecodeWithoutEffect : Prop :=
  ∀ (k w : Nat) (i : Instr) (s : State), (cfRows w)[k]? = some i → s.halted = false → DefaultLayout s.params →
    i.wf s.params = true → w / 2 % 16 ≤ s.params.spongeSelMax.val → w / 32768 % 32 ≤ 16 → w / 1048576 % 16 ≤ 8 →
    exec i s = .next { s with
      responses := s.responses ++ [.ok (.fields
        ⟨BitVec.ofNat 1 (w % 2), BitVec.ofNat 4 (w / 2 % 16), BitVec.ofNat 3 k, BitVec.ofNat 5 (w / 256 % 32),
          BitVec.ofNat 2 (w / 8192 % 4), w / 32768 % 32, w / 1048576 % 16⟩)] }

/-- Derived (R75, R101, R144). LD0 to LD31 (all thirty-two): for the row number k, on a well-formed word of the row whose
selector and depths are in range, past the halt gate and at the default layout, exec answers OK with the seven fields,
the stack-load field being k, and changes nothing else: the numbered operation has no effect in the block. That a row
is an IRDEC request read by one field is the model's choice (log 6). -/
def Obligations.StackLoadRowsDecodeWithoutEffect : Prop :=
  ∀ (k w : Nat) (i : Instr) (s : State), (ldRows w)[k]? = some i → s.halted = false → DefaultLayout s.params →
    i.wf s.params = true → w / 2 % 16 ≤ s.params.spongeSelMax.val → w / 32768 % 32 ≤ 16 → w / 1048576 % 16 ≤ 8 →
    exec i s = .next { s with
      responses := s.responses ++ [.ok (.fields
        ⟨BitVec.ofNat 1 (w % 2), BitVec.ofNat 4 (w / 2 % 16), BitVec.ofNat 3 (w / 32 % 8), BitVec.ofNat 5 k,
          BitVec.ofNat 2 (w / 8192 % 4), w / 32768 % 32, w / 1048576 % 16⟩)] }

/-- Derived (R75, R101, R145). HD0, HD1, HD2, HD3: for the row number k, on a well-formed word of the row whose selector
and depths are in range, past the halt gate and at the default layout, exec answers OK with the seven fields, the
hash-domain field being k, and changes nothing else: the numbered operation has no effect in the block. That a row is
an IRDEC request read by one field is the model's choice (log 6). -/
def Obligations.HashDomainRowsDecodeWithoutEffect : Prop :=
  ∀ (k w : Nat) (i : Instr) (s : State), (hdRows w)[k]? = some i → s.halted = false → DefaultLayout s.params →
    i.wf s.params = true → w / 2 % 16 ≤ s.params.spongeSelMax.val → w / 32768 % 32 ≤ 16 → w / 1048576 % 16 ≤ 8 →
    exec i s = .next { s with
      responses := s.responses ++ [.ok (.fields
        ⟨BitVec.ofNat 1 (w % 2), BitVec.ofNat 4 (w / 2 % 16), BitVec.ofNat 3 (w / 32 % 8), BitVec.ofNat 5 (w / 256 % 32),
          BitVec.ofNat 2 k, w / 32768 % 32, w / 1048576 % 16⟩)] }

/-- Derived (R73, R101). IR: on a well-formed word whose selector and depths are in range, past the halt gate and at the
default layout, exec answers OK with the seven fields and changes nothing else. That the row is an IRDEC request read
as a whole is the model's choice (log 6). -/
def Obligations.WholeWordRowDecodes : Prop :=
  ∀ (w : Nat) (s : State), s.halted = false → DefaultLayout s.params → (Instr.ir w).wf s.params = true →
    w / 2 % 16 ≤ s.params.spongeSelMax.val → w / 32768 % 32 ≤ 16 → w / 1048576 % 16 ≤ 8 →
    exec (.ir w) s = .next { s with
      responses := s.responses ++ [.ok (.fields
        ⟨BitVec.ofNat 1 (w % 2), BitVec.ofNat 4 (w / 2 % 16), BitVec.ofNat 3 (w / 32 % 8), BitVec.ofNat 5 (w / 256 % 32),
          BitVec.ofNat 2 (w / 8192 % 4), w / 32768 % 32, w / 1048576 % 16⟩)] }

/-- Derived (R5, R75, R143, R144, R145). For IR, CF0 to CF7, LD0 to LD31 and HD0 to HD3, well formed in any configuration,
from every state: exec of the row on the word w is exec of IRDEC on w, faults included. So neither the opcode numbers
nor the reading mark (the model's choice, logs 6 and 7) have any effect. -/
def Obligations.EveryRowActsAsIrdec : Prop :=
  ∀ (i : Instr) (w : Nat) (s : State), irWordOf i = some w → i.wf s.params = true →
    exec i s = exec (.irdec w) s

/-- Stated (R80). The empty text has no token. For any other text the tokens joined by commas give the text back, no token
holds a comma, and there is one more token than there are commas. A token is well formed exactly when it is not empty
and every byte is 0x30 to 0x39. -/
def Obligations.TokensSplitTheTextAtCommas : Prop :=
  tokens [] = [] ∧
  (∀ T : List Byte, T ≠ [] → [(0x2C : Byte)].intercalate (tokens T) = T ∧ (∀ t ∈ tokens T, (0x2C : Byte) ∉ t) ∧
    (tokens T).length = T.count 0x2C + 1) ∧
  (∀ t : List Byte, tokenWellFormed t = true ↔ t ≠ [] ∧ ∀ b ∈ t, 0x30 ≤ b.toNat ∧ b.toNat ≤ 0x39)

/-- Stated (R81). The value is the sum over k of (t[k] - 0x30) * 10^(n-1-k) in unbounded naturals. At any width W a token
is taken exactly when it is well formed and its value is below 2^W, and then the vector element is the value itself;
otherwise it is ERR_PARSE. -/
def Obligations.TokenValueIsTheExactDecimalSum : Prop :=
  (∀ t : List Byte, tokenValue t =
    ((List.range t.length).map (fun k => ((t.getD k 0).toNat - 0x30) * 10 ^ (t.length - 1 - k))).sum) ∧
  (∀ (W : Nat) (t : List Byte) (v : BitVec W), parseToken W t = .ok v ↔
    tokenWellFormed t = true ∧ tokenValue t < 2 ^ W ∧ v.toNat = tokenValue t) ∧
  (∀ (W : Nat) (t : List Byte) (code : FaultCode), parseToken W t = .error code ↔
    code = .parse ∧ (tokenWellFormed t = false ∨ 2 ^ W ≤ tokenValue t))

/-- Derived (R81, R140). For every width of at least 4 bits and every well-formed token, the accumulation of R140 gives
the token's value when it is below 2^W and a fault otherwise. -/
def Obligations.FixedWidthAccumulationFaultsExactlyOnOverflow : Prop :=
  ∀ (W : Nat) (t : List Byte), 4 ≤ W → tokenWellFormed t = true →
    accumulateToken W 0 t = if tokenValue t < 2 ^ W then some (tokenValue t) else none

/-- Stated (R51). For every vector of four 128-bit values the buffer has exactly 64 bytes, and byte 16*i + j is (v[i] div
2^(8j)) mod 256. -/
def Obligations.HashBufferIsLittleEndianPerElement : Prop :=
  ∀ v : List U128, v.length = 4 → (hashBuffer v).length = 64 ∧
    ∀ i j : Nat, i < 4 → j < 16 →
      ((hashBuffer v).getD (16 * i + j) 0).toNat = (v.getD i 0).toNat / 2 ^ (8 * j) % 256

/-- Derived (R129). A byte list passes the UTF-8 check if and only if it is a concatenation of sequences each of which has
one of the nine shapes of the rule's table, written out here. The table is the spec's from general knowledge (G2). -/
def Obligations.Utf8IsConcatenationOfTheNineShapes : Prop :=
  ∀ l : List Byte, textValid .utf8 l = true ↔
    ∃ seqs : List (List Byte), l = seqs.flatten ∧ ∀ q ∈ seqs, ∃ shape ∈
      ([ [(0x00, 0x7F)], [(0xC2, 0xDF), (0x80, 0xBF)],
         [(0xE0, 0xE0), (0xA0, 0xBF), (0x80, 0xBF)], [(0xE1, 0xEC), (0x80, 0xBF), (0x80, 0xBF)],
         [(0xED, 0xED), (0x80, 0x9F), (0x80, 0xBF)], [(0xEE, 0xEF), (0x80, 0xBF), (0x80, 0xBF)],
         [(0xF0, 0xF0), (0x90, 0xBF), (0x80, 0xBF), (0x80, 0xBF)],
         [(0xF1, 0xF3), (0x80, 0xBF), (0x80, 0xBF), (0x80, 0xBF)],
         [(0xF4, 0xF4), (0x80, 0x8F), (0x80, 0xBF), (0x80, 0xBF)] ] : List (List (Nat × Nat))),
      List.Forall₂ (fun (b : Byte) (r : Nat × Nat) => r.1 ≤ b.toNat ∧ b.toNat ≤ r.2) q shape

/-- Stated (R124). Past the halt gate, RESCUE_V1 of any text has the next state the rule's pseudocode gives: ERR_TOO_LONG,
else ERR_ARITY when there are not four tokens, else ERR_PARSE when a token is not well formed or is 2^128 or more,
else one call of H_BYTES on the 64 bytes of the values (16 each, low byte first), else ERR_INTERNAL when the digest is
not 32 bytes, else OK with the digest. It holds whatever the collaborator is. -/
def Obligations.RescueV1HashesFourIntegers : Prop :=
  ∀ (T : List Byte) (s : State), s.halted = false →
    exec (.rescueV1 T) s = .next (
      if tooLong s.params T = true then raise .tooLong s
      else if (tokens T).length ≠ 4 then raise .arity s
      else if ∃ t ∈ tokens T, ¬ (tokenWellFormed t = true ∧ tokenValue t < 2 ^ 128) then raise .parse s
      else
        let B := (tokens T).flatMap (fun t => (List.range 16).map (fun j => BitVec.ofNat 8 (tokenValue t / 2 ^ (8 * j) % 256)))
        if (Config.hBytes B).length ≠ 32 then raise .internal s
        else respond (.ok (.bytes (Config.hBytes B))) s)

/-- Stated (R126). Past the halt gate, RESCUE_V2 of any text has the next state the rule's pseudocode gives: ERR_TOO_LONG,
else ERR_ARITY when there are not eight tokens, else ERR_PARSE when a token is not well formed or is 2^64 or more,
else FE_FROM_U64 of each value in order, one call of H_SPONGE, ERR_INTERNAL when the digest does not have 4 elements,
else OK with FE_TO_U64 of each in order. It holds whatever the collaborators are. -/
def Obligations.RescueV2HashesEightIntegers : Prop :=
  ∀ (T : List Byte) (s : State), s.halted = false →
    exec (.rescueV2 T) s = .next (
      if tooLong s.params T = true then raise .tooLong s
      else if (tokens T).length ≠ 8 then raise .arity s
      else if ∃ t ∈ tokens T, ¬ (tokenWellFormed t = true ∧ tokenValue t < 2 ^ 64) then raise .parse s
      else
        let d := Config.hSponge ((tokens T).map (fun t => Config.feFromU64 (BitVec.ofNat 64 (tokenValue t))))
        if d.length ≠ 4 then raise .internal s
        else respond (.ok (.integers (d.map Config.feToU64))) s)

/-- Stated (R127). Past the halt gate, RESCUE_V3 of any byte list has the next state the rule's pseudocode gives:
ERR_TOO_LONG, else one call of H_BYTES on the payload as it stands, ERR_INTERNAL when the digest is not 32 bytes, else
ERR_TEXT when TEXT_VALID rejects it, else OK with the same 32 bytes as text. It holds whatever the collaborator and
whatever TEXT_VALID is. -/
def Obligations.RescueV3HashesTheBytesThemselves : Prop :=
  ∀ (B : List Byte) (s : State), s.halted = false →
    exec (.rescueV3 B) s = .next (
      if tooLong s.params B = true then raise .tooLong s
      else if (Config.hBytes B).length ≠ 32 then raise .internal s
      else if textValid s.params.textRule (Config.hBytes B) = false then raise .text s
      else respond (.ok (.text (Config.hBytes B))) s)

/-- Stated (R132). Past the halt gate: with MAX_INPUT_BYTES = m a payload of more than m bytes raises ERR_TOO_LONG in
RESCUE_V1, RESCUE_V2 and RESCUE_V3 whatever it holds; with MAX_INPUT_BYTES unbounded, or a payload within it, no
payload is too long. -/
def Obligations.LengthGateComesFirst : Prop :=
  (∀ (B : List Byte) (s : State) (m : Nat), s.halted = false → s.params.maxInputBytes = some m → m < B.length →
    exec (.rescueV1 B) s = .next (raise .tooLong s) ∧ exec (.rescueV2 B) s = .next (raise .tooLong s) ∧
      exec (.rescueV3 B) s = .next (raise .tooLong s)) ∧
  (∀ {FE : Type} (c : Collaborators FE) (p : Params) (B : List Byte),
    (p.maxInputBytes = none ∨ ∃ m, p.maxInputBytes = some m ∧ B.length ≤ m) →
    rescueV1Answer c p B ≠ .error .tooLong ∧ rescueV2Answer c p B ≠ .error .tooLong ∧
      rescueV3Answer c p B ≠ .error .tooLong)

/-- Stated (R123). A text within MAX_INPUT_BYTES whose token count is not 4 (RESCUE_V1) or 8 (RESCUE_V2) is answered
ERR_ARITY for every collaborator, even when a token is also unparsable; and whenever the text stages fault, the answer
is that fault for every collaborator. RESCUE_V3 never answers ERR_ARITY. -/
def Obligations.ArityFailsBeforeTheCollaboratorIsCalled : Prop :=
  ∀ {FE : Type} (c : Collaborators FE) (p : Params) (T : List Byte),
    (tooLong p T = false → (tokens T).length ≠ 4 → rescueV1Answer c p T = .error .arity) ∧
    (tooLong p T = false → (tokens T).length ≠ 8 → rescueV2Answer c p T = .error .arity) ∧
    (∀ code, parseText p 4 128 T = .error code → rescueV1Answer c p T = .error code) ∧
    (∀ code, parseText p 8 64 T = .error code → rescueV2Answer c p T = .error code) ∧
    rescueV3Answer c p T ≠ .error .arity

/-- Stated (R128). For every collaborator: when the text parses and the digest does not have 32 bytes (RESCUE_V1) or 4
elements (RESCUE_V2), or the digest of RESCUE_V3's payload does not have 32 bytes, the answer is ERR_INTERNAL; and
what the three operations answer with OK has exactly 32 bytes, 4 integers, 32 bytes, and is H_BYTES of the buffer of
the parsed values, FE_TO_U64 of each element of H_SPONGE of their field elements, and H_BYTES of the payload, which
TEXT_VALID accepts. -/
def Obligations.DigestSizeIsChecked : Prop :=
  ∀ {FE : Type} (c : Collaborators FE) (p : Params) (T : List Byte),
    (∀ v, parseText p 4 128 T = .ok v → (c.hBytes (hashBuffer v)).length ≠ 32 →
      rescueV1Answer c p T = .error .internal) ∧
    (∀ v, parseText p 8 64 T = .ok v → (c.hSponge (v.map c.feFromU64)).length ≠ 4 →
      rescueV2Answer c p T = .error .internal) ∧
    (tooLong p T = false → (c.hBytes T).length ≠ 32 → rescueV3Answer c p T = .error .internal) ∧
    (∀ a, rescueV1Answer c p T = .ok a → ∃ v, parseText p 4 128 T = .ok v ∧ a = .bytes (c.hBytes (hashBuffer v)) ∧
      (c.hBytes (hashBuffer v)).length = 32) ∧
    (∀ a, rescueV2Answer c p T = .ok a → ∃ v, parseText p 8 64 T = .ok v ∧
      a = .integers ((c.hSponge (v.map c.feFromU64)).map c.feToU64) ∧ (c.hSponge (v.map c.feFromU64)).length = 4) ∧
    (∀ a, rescueV3Answer c p T = .ok a →
      a = .text (c.hBytes T) ∧ (c.hBytes T).length = 32 ∧ textValid p.textRule (c.hBytes T) = true)

/-- Derived (R130, R124, R126). For every collaborator and an unbounded MAX_INPUT_BYTES: two texts of well-formed tokens
with the same list of values get the same answer from RESCUE_V1 and from RESCUE_V2; and a leading zero does not change
a token's value. -/
def Obligations.EqualTokenValuesGiveEqualAnswers : Prop :=
  (∀ {FE : Type} (c : Collaborators FE) (p : Params) (T U : List Byte), p.maxInputBytes = none →
    (∀ t ∈ tokens T, tokenWellFormed t = true) → (∀ t ∈ tokens U, tokenWellFormed t = true) →
    (tokens T).map tokenValue = (tokens U).map tokenValue →
    rescueV1Answer c p T = rescueV1Answer c p U ∧ rescueV2Answer c p T = rescueV2Answer c p U) ∧
  (∀ t : List Byte, tokenValue (0x30 :: t) = tokenValue t)

/-- Stated (R150). Past the halt gate, INIT_HOOK's next state has HOOK = 1 and an OK response with no payload and is
otherwise the same, whatever HOOK was; when HALTED = 1 it answers ERR_HALTED and leaves HOOK as it was. It can answer
nothing else. -/
def Obligations.InitHookInstallsTheHandler : Prop :=
  (∀ s : State, s.halted = false →
    exec .initHook s = .next { s with hook := true, responses := s.responses ++ [.ok .absent] }) ∧
  (∀ s : State, s.halted = true →
    exec .initHook s = .next { s with responses := s.responses ++ [.fault .halted] })

/-- Stated (R77, R151). Past the halt gate, a request with command code 6 or 7 and any payload enters ERR_ILLEGAL_CMD: a
next state, with no payload in the response; and both codes decode with any payload. -/
def Obligations.IllegalCommandsFault : Prop :=
  ∀ (payload : Payload) (s : State),
    (s.halted = false → exec (.illegalCmd6 payload) s = .next (raise .illegalCmd s) ∧
      exec (.illegalCmd7 payload) s = .next (raise .illegalCmd s)) ∧
    decode s.params ⟨6, payload⟩ = .ok (.illegalCmd6 payload) ∧ decode s.params ⟨7, payload⟩ = .ok (.illegalCmd7 payload)

/-- Stated (R171). For every fault F and state: raise F appends the response F with no payload; emits one record for F
when HOOK = 1 and F is not ERR_HALTED and else none; sets HALTED when ABORT_ON_DEFECT and F is not ERR_HALTED and else
leaves it; and changes nothing else. The record's content is a free value (log 4). -/
def Obligations.FaultEntryIsExact : Prop :=
  ∀ (F : FaultCode) (s : State),
    raise F s = { s with
      halted := if s.params.abortOnDefect = true ∧ F ≠ .halted then true else s.halted
      responses := s.responses ++ [.fault F]
      diags := if s.hook = true ∧ F ≠ .halted then s.diags ++ [⟨F, Config.diagContent s.draws (faultStatus F)⟩] else s.diags
      draws := if s.hook = true ∧ F ≠ .halted then s.draws + 1 else s.draws }

/-- Stated (R180). For every one of the 53 instructions and every state with HALTED = 1, exec answers the next state that
differs only by one response ERR_HALTED: no diagnostic, no state change. -/
def Obligations.HaltGateStopsEveryOperation : Prop :=
  ∀ (i : Instr) (s : State), s.halted = true →
    exec i s = .next { s with responses := s.responses ++ [.fault .halted] }

/-- Derived (R71, R161). The thirteen codes are 0 to 12 as the table numbers them, 0 exactly for a response with a payload
field (OK); 13 to 15 are never returned; and for every instruction, state and next state, the response appended has a
status that the table's column 'raised by' gives that operation. -/
def Obligations.StatusCodesAndWhoRaisesThem : Prop :=
  (∀ r : Response, responseStatus r < 13 ∧ (responseStatus r = 0 ↔ ∃ payload, responsePayload r = some payload)) ∧
  [FaultCode.illegalCmd, .irReserved, .irOpcodeRange, .irSpongeSel, .irCtxDepth, .irLoopDepth, .arity, .parse, .text,
    .internal, .tooLong, .halted].map faultStatus = [1, 2, 3, 4, 5, 6, 7, 8, 9, 10, 11, 12] ∧
  (∀ (i : Instr) (s t : State) (r : Response), exec i s = .next t → t.responses = s.responses ++ [r] →
    responseStatus r ∈ mayAnswer i)

/-- Derived (R104, R105, R132, R161, R180). With the parameters at their defaults and HALTED = 0, every instruction leaves
HALTED = 0 and answers a status that is none of 3, 4, 11, 12. -/
def Obligations.UnreachableStatusesAtTheDefaults : Prop :=
  ∀ (i : Instr) (s : State), s.params = Config.defaults → s.halted = false →
    ∃ t r, exec i s = .next t ∧ t.halted = false ∧ t.responses = s.responses ++ [r] ∧
      responseStatus r ∉ ([3, 4, 11, 12] : List (BitVec 4))

/-- Stated (R178). For every instruction: the response r it appends decides the diagnostics. With HOOK = 1 at its start
and r a fault F other than ERR_HALTED, exactly one record, for F, is emitted; otherwise none. The record's content is
a free value (log 4). -/
def Obligations.DiagnosticRecordExactlyOnFaultsWithHook : Prop :=
  ∀ (i : Instr) (s t : State) (r : Response), exec i s = .next t → t.responses = s.responses ++ [r] →
    (∀ F, r = .fault F → s.hook = true → F ≠ .halted →
      t.diags = s.diags ++ [⟨F, Config.diagContent s.draws (faultStatus F)⟩] ∧ t.draws = s.draws + 1) ∧
    ((s.hook = false ∨ r = .fault .halted ∨ ∃ payload, r = .ok payload) → t.diags = s.diags ∧ t.draws = s.draws)

/-- Derived (R20, R23, R26, R27, R55, R71). For every instruction whose exec gives a next state: the configuration and the
port are unchanged; HOOK is unchanged except that INIT_HOOK sets it; HALTED is unchanged except that a fault sets it
under ABORT_ON_DEFECT; exactly one response is appended and none is changed; at most one diagnostic record is
appended, only with HOOK = 1, and none is changed. The block has no register, no memory and no program counter to
frame. -/
def Obligations.ExecFrame : Prop :=
  ∀ (i : Instr) (s t : State), exec i s = .next t →
    t.params = s.params ∧ t.port = s.port ∧
    (i ≠ .initHook → t.hook = s.hook) ∧ (i = .initHook → t.hook = s.hook ∨ t.hook = true) ∧
    (t.halted = s.halted ∨ (s.params.abortOnDefect = true ∧ t.halted = true ∧
      ∃ F, F ≠ .halted ∧ t.responses = s.responses ++ [.fault F])) ∧
    (∃ r, t.responses = s.responses ++ [r]) ∧
    (t.diags = s.diags ∨ (s.hook = true ∧ ∃ d, t.diags = s.diags ++ [d]))

/-- Derived (R71, R160, R198, R200). For every instruction and every state, no hypothesis on either: exec answers a next
state whose responses are the earlier ones followed by one response. No instruction faults the machine or is refused. -/
def Obligations.EveryInstructionAnswersOnce : Prop :=
  ∀ (i : Instr) (s : State), ∃ t r, exec i s = .next t ∧ t.responses = s.responses ++ [r]

/-- Derived (R26, R58, R130). From any two states with the same HALTED and the same configuration, whatever their HOOK,
their earlier responses, records, waiting events and counters, an instruction appends the same response to both and
leaves the same HALTED. -/
def Obligations.ResponseIsAFunctionOfRequestBitsAndConfiguration : Prop :=
  ∀ (i : Instr) (s t s' t' : State), s.halted = t.halted → s.params = t.params →
    exec i s = .next s' → exec i t = .next t' →
    s'.halted = t'.halted ∧ ∃ r, s'.responses = s.responses ++ [r] ∧ t'.responses = t.responses ++ [r]

/-- Stated (R26). In any step: if HOOK goes from 0 to 1, the event was a request that decodes to INIT_HOOK; if it goes
from 1 to 0, the event was a reset (of an idle block or in the middle of an operation); an INIT_HOOK request past the
gate leaves HOOK = 1; and one with HOOK already 1 leaves the state as it was but for the OK response and the port.
HOOK changes no result: from two states that differ only in HOOK, diagnostics and free-value count, an instruction
answers the same. -/
def Obligations.OnlyInitHookAndResetChangeHook : Prop :=
  (∀ s t : State, step s = .next t → s.hook = false → t.hook = true →
    ∃ r rest, s.port = .request r :: rest ∧ decode s.params r = .ok .initHook) ∧
  (∀ s t : State, step s = .next t → s.hook = true → t.hook = false →
    ∃ rest, s.port = .reset :: rest ∨ ∃ r, s.port = .abandoned r :: rest) ∧
  (∀ s : State, s.halted = false → ∃ t, exec .initHook s = .next t ∧ t.hook = true) ∧
  (∀ s : State, s.halted = false → s.hook = true →
    exec .initHook s = .next { s with responses := s.responses ++ [.ok .absent] }) ∧
  (∀ (i : Instr) (s : State) (h : Bool) (ds : List DiagRecord) (n : Nat), ∃ t t',
    exec i s = .next t ∧ exec i { s with hook := h, diags := ds, draws := n } = .next t' ∧
      t.responses = t'.responses ∧ t.halted = t'.halted)

/-- Stated (R27). Reset and every step keep 'HALTED is 0 when ABORT_ON_DEFECT is false'. With ABORT_ON_DEFECT true an
instruction that answers any fault leaves HALTED = 1, and from there every instruction answers ERR_HALTED and changes
nothing else. In any step HALTED goes from 1 to 0 only by a reset. -/
def Obligations.HaltedIsStickyUntilReset : Prop :=
  HaltedOnlyUnderAbort State.reset ∧
  (∀ s t : State, HaltedOnlyUnderAbort s → step s = .next t → HaltedOnlyUnderAbort t) ∧
  (∀ (i : Instr) (s t : State) (F : FaultCode), s.params.abortOnDefect = true → exec i s = .next t →
    t.responses = s.responses ++ [.fault F] → t.halted = true ∧
      ∀ j : Instr, exec j t = .next { t with responses := t.responses ++ [.fault .halted] }) ∧
  (∀ s t : State, step s = .next t → s.halted = true → t.halted = false →
    ∃ rest, s.port = .reset :: rest ∨ ∃ r, s.port = .abandoned r :: rest)

/-- Derived (R25, R150, R171, R190). Bit 0 of the two-bit register is HOOK, bit 1 is HALTED; INIT_HOOK past the gate sets
bit 0 and leaves bit 1; fault entry of a fault other than ERR_HALTED under ABORT_ON_DEFECT sets bit 1 and leaves bit
0; reset clears both. -/
def Obligations.CsrHoldsHookAndHalted : Prop :=
  ∀ s : State, (csr s).getLsbD 0 = s.hook ∧ (csr s).getLsbD 1 = s.halted ∧
    (s.halted = false → ∃ t, exec .initHook s = .next t ∧ csr t = csr s ||| 0b01#2) ∧
    (∀ F : FaultCode, F ≠ .halted → s.params.abortOnDefect = true → csr (raise F s) = csr s ||| 0b10#2) ∧
    csr (resetBlock s) = 0

/-- Derived (R71, R128, R129, R130, R160). If every OK response given so far is sound (fields of their widths and in
range; a legal IR word; exactly 32 digest bytes; exactly 4 integers; 32 bytes TEXT_VALID accepts), then so is every
response after any step, in every configuration and whatever the collaborators are: never a partial, truncated or
padded result. -/
def Obligations.ResponsesStaySound : Prop :=
  ∀ s t : State, ResponsesSound s → step s = .next t → ResponsesSound t

/-- Derived (R31). At State.reset every response is sound (none has been given), HALTED is 0 without ABORT_ON_DEFECT, and
the layout assertions hold, so step runs. -/
def Obligations.InvariantsHoldAtReset : Prop :=
  ResponsesSound State.reset ∧ HaltedOnlyUnderAbort State.reset ∧ layoutOk State.reset.params = true

/-- Derived (R26, R58, R178). Two states that agree on HALTED, the configuration, the waiting events and the responses,
and differ in HOOK, records and free-value count at will: after any number of steps either both runs have a next state
and still agree, or both stop for the same reason. -/
def Obligations.DiagnosticsNeverInfluenceARun : Prop :=
  ∀ (k : Nat) (s t : State), SameButForDiagnostics s t →
    match Host.Core.run core k s, Host.Core.run core k t with
    | .next s', .next t' => SameButForDiagnostics s' t'
    | .fault e, .fault e' => e = e'
    | .refused e, .refused e' => e = e'
    | _, _ => False

/-- Derived (R58, R172). With ABORT_ON_DEFECT false, let the oldest request be answered by a fault in one step. Then for
every number of further steps, the run from there and the run from the state that never held the request end alike:
both have a next state or both stop, and where they have one, the same responses follow and HOOK, HALTED and the
waiting events are the same. With ABORT_ON_DEFECT true the block is halted after it. -/
def Obligations.FaultLeavesNoTrace : Prop :=
  (∀ (s t : State) (r : Request) (rest : List HostEvent) (F : FaultCode), s.params.abortOnDefect = false →
    s.port = .request r :: rest → step s = .next t → t.responses = s.responses ++ [.fault F] →
    ∀ k : Nat,
      match Host.Core.run core k t, Host.Core.run core k { s with port := rest } with
      | .next u, .next u' => u.hook = u'.hook ∧ u.halted = u'.halted ∧ u.params = u'.params ∧ u.port = u'.port ∧
          ∃ later, u.responses = t.responses ++ later ∧ u'.responses = s.responses ++ later
      | .fault e, .fault e' => e = e'
      | .refused e, .refused e' => e = e'
      | _, _ => False) ∧
  (∀ (s t : State) (r : Request) (rest : List HostEvent) (F : FaultCode), s.params.abortOnDefect = true →
    s.port = .request r :: rest → step s = .next t → t.responses = s.responses ++ [.fault F] → t.halted = true)

/-- Derived (R29, R58, R130). With ABORT_ON_DEFECT false, a request issued twice in a row gets two identical responses,
whatever the request and whatever the state; and so it does when any one other request stands between the two. -/
def Obligations.EqualRequestsGetEqualResponses : Prop :=
  (∀ (s : State) (r : Request) (rest : List HostEvent), s.params.abortOnDefect = false → layoutOk s.params = true →
    r.fits s.params = true → s.port = .request r :: .request r :: rest →
    ∃ t x, Host.Core.run core 2 s = .next t ∧ t.port = rest ∧ t.responses = s.responses ++ [x, x]) ∧
  (∀ (s : State) (r q : Request) (rest : List HostEvent), s.params.abortOnDefect = false → layoutOk s.params = true →
    r.fits s.params = true → q.fits s.params = true → s.port = .request r :: .request q :: .request r :: rest →
    ∃ t x y, Host.Core.run core 3 s = .next t ∧ t.port = rest ∧ t.responses = s.responses ++ [x, y, x])

/-- Derived (R58, R71, R200, R201). For every list of requests of the format waiting at the port of a built block, as many
steps as there are requests end in a next state: the port is empty, the configuration is as it was, and exactly one
response per request has been appended, in order: for the k-th request, the run has a state u after k steps with the
first k new responses appended, the request decodes to an instruction, and exec of it from u appends the k-th new
response. -/
def Obligations.RunAnswersEveryRequestInOrder : Prop :=
  ∀ (rs : List Request) (s : State), layoutOk s.params = true → (∀ r ∈ rs, r.fits s.params = true) →
    s.port = rs.map HostEvent.request →
    ∃ t new, Host.Core.run core rs.length s = .next t ∧ t.port = [] ∧ t.params = s.params ∧
      t.responses = s.responses ++ new ∧ new.length = rs.length ∧
      ∀ (k : Nat) (r : Request), rs[k]? = some r → ∃ u v i x, Host.Core.run core k s = .next u ∧
        u.responses = s.responses ++ new.take k ∧ decode s.params r = .ok i ∧ exec i u = .next v ∧ new[k]? = some x ∧
        v.responses = u.responses ++ [x]

/-- Derived (R7, R73, R74, R102, U5). For every IR_WIDTH, CTX_DEPTH_RANGE and LOOP_DEPTH_RANGE the layout assertions
admit, whatever their places and widths: when IRDEC accepts a word of the register, ctx_depth and loop_depth are the
bits of the two ranges, and the word is the sum of its seven fields at the first bits of their ranges. That the
reserved bits of a moved layout are the bits of no declared field is R102's first sentence (log 20). -/
def Obligations.DepthFieldsFollowTheirRanges : Prop :=
  ∀ (p : Params) (w : Nat) (f : IrFields), layoutOk p = true → w < 2 ^ p.irWidth → irdecAnswer p w = .ok (.fields f) →
    f.ctx = w / 2 ^ p.ctxDepthRange.lo % 2 ^ (p.ctxDepthRange.hi - p.ctxDepthRange.lo) ∧
    f.loop = w / 2 ^ p.loopDepthRange.lo % 2 ^ (p.loopDepthRange.hi - p.loopDepthRange.lo) ∧
    w = f.n.toNat + 2 * f.s.toNat + 32 * f.cf.toNat + 256 * f.ld.toNat + 8192 * f.hd.toNat
      + 2 ^ p.ctxDepthRange.lo * f.ctx + 2 ^ p.loopDepthRange.lo * f.loop
end

