-- ==== Sys2Proof/Laws/Layout.lean ====
section
/-! SUPPORT. The layout of the IR word bit by bit (R73, R74, R102): what a sum of disjoint fields, the reserved mask, and an
extracted field hold at each bit, and that assembling and extracting are inverse in every layout the assertions admit. -/

namespace Sys2Proof.Machine

/-! ## Sums of values at disjoint ranges -/

/-- A sum of naturals that share no bit has the bits of both. -/
theorem testBit_add_of_disjoint {x y : Nat} (h : ∀ b, ¬ (x.testBit b = true ∧ y.testBit b = true)) (b : Nat) :
    (x + y).testBit b = (x.testBit b || y.testBit b) := by
  have hx : x < 2 ^ (x + y + 1) := lt_of_lt_of_le (Nat.lt_two_pow_self) (Nat.pow_le_pow_right (by omega) (by omega))
  have hy : y < 2 ^ (x + y + 1) := lt_of_lt_of_le (Nat.lt_two_pow_self) (Nat.pow_le_pow_right (by omega) (by omega))
  have hs : x + y < 2 ^ (x + y + 1) :=
    lt_of_lt_of_le (Nat.lt_two_pow_self) (Nat.pow_le_pow_right (by omega) (by omega))
  have hand : BitVec.ofNat (x + y + 1) x &&& BitVec.ofNat (x + y + 1) y = 0#(x + y + 1) := by
    apply BitVec.eq_of_getLsbD_eq
    intro i hi
    have := h i
    simp only [BitVec.getLsbD_and, BitVec.getLsbD_ofNat, hi, decide_true, Bool.true_and,
      Nat.zero_testBit]
    cases hxi : x.testBit i <;> cases hyi : y.testBit i <;> simp_all
  have hor := congrArg BitVec.toNat (BitVec.add_eq_or_of_and_eq_zero _ _ hand)
  simp only [BitVec.toNat_add, BitVec.toNat_or, BitVec.toNat_ofNat, Nat.mod_eq_of_lt hx, Nat.mod_eq_of_lt hy,
    Nat.mod_eq_of_lt hs] at hor
  rw [hor, Nat.testBit_or]

/-- A range holds a bit. -/
def inRange (r : BitRange) (b : Nat) : Bool := decide (r.lo ≤ b) && decide (b < r.hi)

/-- Values at their ranges, as one sum (R74). -/
def placed : List (BitRange × Nat) → Nat
  | [] => 0
  | (r, v) :: rest => v * 2 ^ r.lo + placed rest

theorem testBit_value {r : BitRange} {v : Nat} (hv : v < 2 ^ r.width) (b : Nat) :
    (v * 2 ^ r.lo).testBit b = (inRange r b && v.testBit (b - r.lo)) := by
  rw [Nat.testBit_mul_two_pow]
  by_cases hb : r.lo ≤ b
  · by_cases hh : b < r.hi
    · simp [inRange, hb, hh]
    · have : v.testBit (b - r.lo) = false :=
        Nat.testBit_lt_two_pow (lt_of_lt_of_le hv (Nat.pow_le_pow_right (by omega) (by unfold BitRange.width; omega)))
      simp [this]
  · simp [inRange, hb]

/-- Bit `b` of a sum of values at disjoint ranges. -/
def placedBit (l : List (BitRange × Nat)) (b : Nat) : Bool := l.any (fun p => inRange p.1 b && p.2.testBit (b - p.1.lo))

theorem testBit_placed (l : List (BitRange × Nat)) (hw : ∀ p ∈ l, p.2 < 2 ^ p.1.width)
    (hd : noOverlap (l.map Prod.fst) = true) (b : Nat) : (placed l).testBit b = placedBit l b := by
  induction l generalizing b with
  | nil => simp [placed, placedBit]
  | cons a rest ih =>
    obtain ⟨r, v⟩ := a
    simp only [List.map_cons, noOverlap, Bool.and_eq_true, List.all_eq_true] at hd
    have ih := ih (fun p hp => hw p (List.mem_cons_of_mem _ hp)) hd.2
    have hv : v < 2 ^ r.width := hw (r, v) (List.mem_cons_self)
    show (v * 2 ^ r.lo + placed rest).testBit b = _
    rw [testBit_add_of_disjoint, testBit_value hv, ih]
    · simp [placedBit]
    · intro c ⟨h1, h2⟩
      rw [testBit_value hv] at h1
      rw [ih] at h2
      simp only [placedBit, List.any_eq_true, Bool.and_eq_true] at h1 h2
      obtain ⟨p, hp, hp1, -⟩ := h2
      have := hd.1 p.1 (List.mem_map_of_mem hp)
      simp only [rangesDisjoint, inRange, Bool.and_eq_true, decide_eq_true_eq] at this h1 hp1
      omega

/-! ## The layout assertions -/

/-- Two ranges share no bit exactly when they lie apart or one of them is empty. -/
theorem rangesDisjoint_iff (a b : BitRange) : rangesDisjoint a b = true ↔
    a.hi ≤ b.lo ∨ b.hi ≤ a.lo ∨ a.hi ≤ a.lo ∨ b.hi ≤ b.lo := by
  simp only [rangesDisjoint, decide_eq_true_eq]
  omega

/-- A range shares no bit with the source's five ranges exactly when it lies above them or is empty. -/
theorem apart_from_source_iff {r : BitRange} (hr : r.lo ≤ r.hi) :
    (rangesDisjoint Config.opCounterRange r = true ∧ rangesDisjoint Config.spongeRange r = true ∧
      rangesDisjoint Config.cfOpBitsRange r = true ∧ rangesDisjoint Config.ldOpBitsRange r = true ∧
      rangesDisjoint Config.hdOpBitsRange r = true) ↔ (15 ≤ r.lo ∨ r.lo = r.hi) := by
  simp only [rangesDisjoint_iff, Config.opCounterRange, Config.spongeRange, Config.cfOpBitsRange, Config.ldOpBitsRange,
    Config.hdOpBitsRange]
  omega

/-- The layout assertions as inequalities (R108): the two depth ranges are ranges within the register, each above the
source's ranges unless it is empty, and they share no bit. -/
theorem layoutOk_iff (p : Params) : layoutOk p = true ↔ 24 ≤ p.irWidth ∧
    p.ctxDepthRange.lo ≤ p.ctxDepthRange.hi ∧ p.ctxDepthRange.hi ≤ p.irWidth ∧
    p.loopDepthRange.lo ≤ p.loopDepthRange.hi ∧ p.loopDepthRange.hi ≤ p.irWidth ∧
    (15 ≤ p.ctxDepthRange.lo ∨ p.ctxDepthRange.lo = p.ctxDepthRange.hi) ∧
    (15 ≤ p.loopDepthRange.lo ∨ p.loopDepthRange.lo = p.loopDepthRange.hi) ∧
    rangesDisjoint p.ctxDepthRange p.loopDepthRange = true := by
  have source : noOverlap [Config.opCounterRange, Config.spongeRange, Config.cfOpBitsRange, Config.ldOpBitsRange,
      Config.hdOpBitsRange] = true := by decide
  simp only [noOverlap, List.all_cons, List.all_nil, Bool.and_eq_true, Bool.and_true] at source
  constructor
  · intro h
    simp only [layoutOk, declaredRanges, noOverlap, List.all_cons, List.all_nil, Bool.and_eq_true, Bool.and_true,
      decide_eq_true_eq] at h
    obtain ⟨⟨⟨hW, -, -, -, -, -, hc, hl⟩, ⟨-, -, -, -, c1, l1⟩, ⟨-, -, -, c2, l2⟩, ⟨-, -, c3, l3⟩, ⟨-, c4, l4⟩,
      ⟨c5, l5⟩, hcl⟩, -⟩ := h
    exact ⟨hW, hc.1, hc.2, hl.1, hl.2, (apart_from_source_iff hc.1).mp ⟨c1, c2, c3, c4, c5⟩,
      (apart_from_source_iff hl.1).mp ⟨l1, l2, l3, l4, l5⟩, hcl⟩
  · rintro ⟨hW, hc1, hc2, hl1, hl2, hc, hl, hcl⟩
    obtain ⟨c1, c2, c3, c4, c5⟩ := (apart_from_source_iff hc1).mpr hc
    obtain ⟨l1, l2, l3, l4, l5⟩ := (apart_from_source_iff hl1).mpr hl
    have hsum : 15 + (p.ctxDepthRange.width + p.loopDepthRange.width) ≤ p.irWidth := by
      rw [rangesDisjoint_iff] at hcl
      simp only [BitRange.width]
      clear c1 c2 c3 c4 c5 l1 l2 l3 l4 l5 source
      omega
    have hwidth : ((declaredRanges p).map BitRange.width).sum ≤ p.irWidth := by
      refine le_trans (le_of_eq ?_) hsum
      simp only [declaredRanges, List.map_cons, List.map_nil, List.sum_cons, List.sum_nil]
      show 1 + (4 + (3 + (5 + (2 + _)))) = _
      omega
    simp only [layoutOk, Bool.and_eq_true, decide_eq_true_eq]
    refine ⟨⟨⟨hW, ?_⟩, ?_⟩, hwidth⟩
    · simp only [declaredRanges, List.all_cons, List.all_nil, Bool.and_eq_true, Bool.and_true, decide_eq_true_eq,
        Config.opCounterRange, Config.spongeRange, Config.cfOpBitsRange, Config.ldOpBitsRange, Config.hdOpBitsRange]
      clear c1 c2 c3 c4 c5 l1 l2 l3 l4 l5 source hcl hwidth hsum hc hl
      omega
    · simp_all [declaredRanges, noOverlap]

theorem noOverlap_of_layoutOk {p : Params} (h : layoutOk p = true) : noOverlap (declaredRanges p) = true := by
  simp only [layoutOk, Bool.and_eq_true] at h
  exact h.1.2

theorem hi_le_of_layoutOk {p : Params} (h : layoutOk p = true) {r : BitRange} (hr : r ∈ declaredRanges p) :
    r.hi ≤ p.irWidth := by
  simp only [layoutOk, Bool.and_eq_true, List.all_eq_true, decide_eq_true_eq] at h
  exact (h.1.1.2 r hr).2

/-! ## The reserved mask (R102) -/

/-- Each declared range with the value that has all its bits set. -/
def maskParts (p : Params) : List (BitRange × Nat) := (declaredRanges p).map (fun r => (r, 2 ^ r.width - 1))

theorem placed_maskParts (l : List BitRange) :
    placed (l.map (fun r => (r, 2 ^ r.width - 1))) = (l.map rangeMask).sum := by
  induction l with
  | nil => rfl
  | cons r rest ih => simp [placed, rangeMask, ih]

theorem testBit_fieldMasks {p : Params} (h : layoutOk p = true) (b : Nat) :
    (((declaredRanges p).map rangeMask).sum).testBit b = (declaredRanges p).any (inRange · b) := by
  rw [← placed_maskParts, testBit_placed]
  · simp only [placedBit, List.any_map]
    congr 1
    funext r
    simp only [Function.comp, Nat.testBit_two_pow_sub_one, inRange, BitRange.width]
    by_cases h1 : r.lo ≤ b <;> by_cases h2 : b < r.hi <;> (simp [h1, h2]; try omega)
  · intro q hq
    simp only [List.mem_map] at hq
    obtain ⟨r, -, rfl⟩ := hq
    have : 0 < 2 ^ r.width := by positivity
    show 2 ^ r.width - 1 < 2 ^ r.width
    omega
  · rw [List.map_map]
    have : (Prod.fst ∘ fun r : BitRange => (r, 2 ^ r.width - 1)) = id := rfl
    rw [this, List.map_id]
    exact noOverlap_of_layoutOk h

theorem fieldMasks_lt {p : Params} (h : layoutOk p = true) :
    ((declaredRanges p).map rangeMask).sum < 2 ^ p.irWidth := by
  apply Nat.lt_pow_two_of_testBit
  intro b hb
  rw [testBit_fieldMasks h, List.any_eq_false]
  intro r hr
  have := hi_le_of_layoutOk h hr
  simp [inRange]
  omega

/-- The bits of the reserved mask: those of the register that no declared range holds. -/
theorem testBit_reservedMask {p : Params} (h : layoutOk p = true) (b : Nat) :
    (reservedMask p).testBit b = (decide (b < p.irWidth) && !(declaredRanges p).any (inRange · b)) := by
  have := Nat.testBit_two_pow_sub_succ (fieldMasks_lt h) b
  rw [testBit_fieldMasks h] at this
  rw [← this, reservedMask, Nat.sub_sub, Nat.add_comm 1]

/-! ## Assembly and extraction (R74) -/

/-- Each declared range with the value of its field. -/
def fieldParts (p : Params) (f : IrFields) : List (BitRange × Nat) :=
  [(Config.opCounterRange, f.n.toNat), (Config.spongeRange, f.s.toNat), (Config.cfOpBitsRange, f.cf.toNat),
    (Config.ldOpBitsRange, f.ld.toNat), (Config.hdOpBitsRange, f.hd.toNat), (p.ctxDepthRange, f.ctx),
    (p.loopDepthRange, f.loop)]

theorem placed_fieldParts (p : Params) (f : IrFields) : placed (fieldParts p f) = assembleFields p f := by
  simp only [placed, fieldParts, assembleFields]
  omega

theorem fieldParts_lt {p : Params} {f : IrFields} (hf : f.fits p = true) :
    ∀ q ∈ fieldParts p f, q.2 < 2 ^ q.1.width := by
  simp only [IrFields.fits, Bool.and_eq_true, decide_eq_true_eq] at hf
  simp only [fieldParts, List.forall_mem_cons]
  exact ⟨f.n.isLt, f.s.isLt, f.cf.isLt, f.ld.isLt, f.hd.isLt, hf.1, hf.2, by simp⟩

theorem testBit_assembleFields {p : Params} (h : layoutOk p = true) {f : IrFields} (hf : f.fits p = true) (b : Nat) :
    (assembleFields p f).testBit b = placedBit (fieldParts p f) b := by
  rw [← placed_fieldParts]
  exact testBit_placed _ (fieldParts_lt hf) (noOverlap_of_layoutOk h) b

/-- The bits of an extracted field. -/
theorem testBit_irField (w : Nat) (r : BitRange) (b : Nat) :
    (irField w r).testBit b = (decide (b < r.hi - r.lo) && w.testBit (b + r.lo)) := by
  rw [irField, Nat.testBit_mod_two_pow, Nat.testBit_div_two_pow]

theorem irField_lt (w : Nat) (r : BitRange) : irField w r < 2 ^ (r.hi - r.lo) :=
  Nat.mod_lt _ (by positivity)

/-- Extracted fields fit their widths (R74). -/
@[simp] theorem extractFields_fits (p : Params) (w : Nat) : (extractFields p w).fits p = true := by
  simp only [IrFields.fits, extractFields, Bool.and_eq_true]
  exact ⟨decide_eq_true (irField_lt w _), decide_eq_true (irField_lt w _)⟩

/-- The seven fields of a word as naturals at their ranges. -/
theorem fieldParts_extractFields (p : Params) (w : Nat) :
    fieldParts p (extractFields p w) = (declaredRanges p).map (fun r => (r, irField w r)) := by
  have toNat_field : ∀ (n : Nat) (r : BitRange), r.hi - r.lo = n → (BitVec.ofNat n (irField w r)).toNat = irField w r := by
    intro n r hn
    subst hn
    exact Nat.mod_eq_of_lt (irField_lt w r)
  simp only [fieldParts, extractFields, declaredRanges, List.map_cons, List.map_nil]
  rw [toNat_field 1 _ rfl, toNat_field 4 _ rfl, toNat_field 3 _ rfl, toNat_field 5 _ rfl, toNat_field 2 _ rfl]

theorem placedBit_extracted (l : List BitRange) (w b : Nat) :
    placedBit (l.map (fun r => (r, irField w r))) b = (l.any (inRange · b) && w.testBit b) := by
  induction l with
  | nil => rfl
  | cons r rest ih =>
    simp only [placedBit, List.map_cons, List.any_cons] at ih ⊢
    rw [ih, testBit_irField]
    by_cases h1 : r.lo ≤ b <;> by_cases h2 : b < r.hi
    · have h3 : b - r.lo < r.hi - r.lo := by omega
      cases hb : w.testBit b <;> simp [inRange, h1, h2, h3, hb]
    · simp [inRange, h1, h2]
    · simp [inRange, h1]
    · simp [inRange, h1]

/-- The reserved bits of a word of the register are zero exactly when the word is the assembly of its fields. -/
theorem reservedBits_eq_zero_iff {p : Params} (h : layoutOk p = true) {w : Nat} (hw : w < 2 ^ p.irWidth) :
    reservedBits p w = 0 ↔ assembleFields p (extractFields p w) = w := by
  have hbit : ∀ b, (assembleFields p (extractFields p w)).testBit b =
      ((declaredRanges p).any (inRange · b) && w.testBit b) := by
    intro b
    rw [testBit_assembleFields h (extractFields_fits p w), fieldParts_extractFields, placedBit_extracted]
  have hres : ∀ b, (reservedBits p w).testBit b =
      (w.testBit b && !(declaredRanges p).any (inRange · b)) := by
    intro b
    rw [reservedBits, Nat.testBit_and, testBit_reservedMask h]
    by_cases hb : b < p.irWidth
    · simp [hb]
    · have : w.testBit b = false :=
        Nat.testBit_lt_two_pow (lt_of_lt_of_le hw (Nat.pow_le_pow_right (by omega) (by omega)))
      simp [this]
  constructor
  · intro h0
    apply Nat.eq_of_testBit_eq
    intro b
    have := hres b
    rw [h0, Nat.zero_testBit] at this
    rw [hbit]
    revert this
    cases w.testBit b <;> cases (declaredRanges p).any (inRange · b) <;> simp
  · intro h0
    apply Nat.eq_of_testBit_eq
    intro b
    have := hbit b
    rw [h0] at this
    rw [hres, Nat.zero_testBit]
    revert this
    cases w.testBit b <;> cases (declaredRanges p).any (inRange · b) <;> simp

/-- An assembled word lies in the register. -/
theorem assembleFields_lt {p : Params} (h : layoutOk p = true) {f : IrFields} (hf : f.fits p = true) :
    assembleFields p f < 2 ^ p.irWidth := by
  apply Nat.lt_pow_two_of_testBit
  intro b hb
  rw [testBit_assembleFields h hf, placedBit, List.any_eq_false]
  intro q hq
  have hm : q.1 ∈ declaredRanges p := by
    have := List.mem_map_of_mem (f := Prod.fst) hq
    exact this
  have := hi_le_of_layoutOk h hm
  simp [inRange]
  omega

/-- At a bit of one of the disjoint ranges, the placed values hold that range's bit. -/
theorem placedBit_of_mem {l : List (BitRange × Nat)} (hd : noOverlap (l.map Prod.fst) = true) {q : BitRange × Nat}
    (hq : q ∈ l) {b : Nat} (hb : inRange q.1 b = true) : placedBit l b = q.2.testBit (b - q.1.lo) := by
  induction l with
  | nil => cases hq
  | cons a rest ih =>
    simp only [List.map_cons, noOverlap, Bool.and_eq_true, List.all_eq_true] at hd
    have apart : ∀ r ∈ rest, inRange a.1 b = true → inRange r.1 b = true → False := by
      intro r hr h1 h2
      have := hd.1 r.1 (List.mem_map_of_mem hr)
      simp only [rangesDisjoint, inRange, Bool.and_eq_true, decide_eq_true_eq] at this h1 h2
      omega
    have cons_bit : placedBit (a :: rest) b = (inRange a.1 b && a.2.testBit (b - a.1.lo) || placedBit rest b) := rfl
    rcases List.mem_cons.mp hq with rfl | hr
    · have : placedBit rest b = false := by
        rw [placedBit, List.any_eq_false]
        intro r hr h
        simp only [Bool.and_eq_true] at h
        exact apart r hr hb h.1
      simp [cons_bit, hb, this]
    · have : inRange a.1 b = false := by
        cases h : inRange a.1 b with
        | false => rfl
        | true => exact (apart q hr h hb).elim
      simp [cons_bit, this, ih hd.2 hr]

/-- A field of an assembled word is the value it was assembled from. -/
theorem irField_assembleFields {p : Params} (h : layoutOk p = true) {f : IrFields} (hf : f.fits p = true)
    {q : BitRange × Nat} (hq : q ∈ fieldParts p f) : irField (assembleFields p f) q.1 = q.2 := by
  apply Nat.eq_of_testBit_eq
  intro b
  rw [testBit_irField, testBit_assembleFields h hf]
  by_cases hb : b < q.1.hi - q.1.lo
  · have hin : inRange q.1 (b + q.1.lo) = true := by simp [inRange]; omega
    have hd : noOverlap ((fieldParts p f).map Prod.fst) = true := noOverlap_of_layoutOk h
    rw [placedBit_of_mem hd hq hin]
    simp [hb]
  · have : q.2.testBit b = false := Nat.testBit_lt_two_pow
      (lt_of_lt_of_le (fieldParts_lt hf q hq) (Nat.pow_le_pow_right (by omega) (by unfold BitRange.width; omega)))
    simp [hb, this]

/-- Extracting the fields of an assembled word gives them back. -/
theorem extractFields_assembleFields {p : Params} (h : layoutOk p = true) {f : IrFields} (hf : f.fits p = true) :
    extractFields p (assembleFields p f) = f := by
  have parts : ∀ q ∈ fieldParts p f, irField (assembleFields p f) q.1 = q.2 := fun q => irField_assembleFields h hf
  simp only [fieldParts, List.forall_mem_cons] at parts
  obtain ⟨h1, h2, h3, h4, h5, h6, h7, -⟩ := parts
  simp only [extractFields, h1, h2, h3, h4, h5, h6, h7, BitVec.ofNat_toNat, BitVec.setWidth_eq]

/-- An assembled word has no reserved bit set. -/
theorem reservedBits_assembleFields {p : Params} (h : layoutOk p = true) {f : IrFields} (hf : f.fits p = true) :
    reservedBits p (assembleFields p f) = 0 := by
  rw [reservedBits_eq_zero_iff h (assembleFields_lt h hf), extractFields_assembleFields h hf]

/-- At the default depth ranges the reserved bits are the bits from 24 up (R102). -/
theorem reservedBits_default {p : Params} (hw : 24 ≤ p.irWidth) (hc : p.ctxDepthRange = ⟨15, 20⟩) (hl : p.loopDepthRange = ⟨20, 24⟩)
    {w : Nat} (h : w < 2 ^ p.irWidth) : reservedBits p w = 0 ↔ w / 2 ^ 24 = 0 := by
  have hok : layoutOk p = true := (layoutOk_iff p).mpr (by simp [hc, hl, rangesDisjoint]; omega)
  rw [reservedBits_eq_zero_iff hok h]
  simp [assembleFields, extractFields, irField, Config.opCounterRange, Config.spongeRange, Config.cfOpBitsRange,
    Config.ldOpBitsRange, Config.hdOpBitsRange, hc, hl]
  omega

/-- Writing back the value a field holds changes nothing (R75). -/
theorem withField_irField (r : BitRange) (w : Nat) : withField r (irField w r) w = w := by
  have : irField w r * 2 ^ r.lo ≤ w :=
    le_trans (Nat.mul_le_mul_right _ (Nat.mod_le _ _)) (Nat.div_mul_le_self w _)
  unfold withField
  omega

end Sys2Proof.Machine
end

