-- ==== Sys2Proof/Laws/State.lean ====
section
/-! SUPPORT. One lemma for each field of the state under each update, true by definition, so that no proof unfolds an
update. -/

namespace Sys2Proof.Machine

@[simp] theorem setHook_hook (s : State) : (setHook s).hook = true := rfl
@[simp] theorem setHook_halted (s : State) : (setHook s).halted = s.halted := rfl
@[simp] theorem setHook_params (s : State) : (setHook s).params = s.params := rfl
@[simp] theorem setHook_port (s : State) : (setHook s).port = s.port := rfl
@[simp] theorem setHook_responses (s : State) : (setHook s).responses = s.responses := rfl
@[simp] theorem setHook_diags (s : State) : (setHook s).diags = s.diags := rfl
@[simp] theorem setHook_draws (s : State) : (setHook s).draws = s.draws := rfl

@[simp] theorem setHalted_hook (s : State) : (setHalted s).hook = s.hook := rfl
@[simp] theorem setHalted_halted (s : State) : (setHalted s).halted = true := rfl
@[simp] theorem setHalted_params (s : State) : (setHalted s).params = s.params := rfl
@[simp] theorem setHalted_port (s : State) : (setHalted s).port = s.port := rfl
@[simp] theorem setHalted_responses (s : State) : (setHalted s).responses = s.responses := rfl
@[simp] theorem setHalted_diags (s : State) : (setHalted s).diags = s.diags := rfl
@[simp] theorem setHalted_draws (s : State) : (setHalted s).draws = s.draws := rfl

@[simp] theorem clearCsr_hook (s : State) : (clearCsr s).hook = false := rfl
@[simp] theorem clearCsr_halted (s : State) : (clearCsr s).halted = false := rfl
@[simp] theorem clearCsr_params (s : State) : (clearCsr s).params = s.params := rfl
@[simp] theorem clearCsr_port (s : State) : (clearCsr s).port = s.port := rfl
@[simp] theorem clearCsr_responses (s : State) : (clearCsr s).responses = s.responses := rfl
@[simp] theorem clearCsr_diags (s : State) : (clearCsr s).diags = s.diags := rfl
@[simp] theorem clearCsr_draws (s : State) : (clearCsr s).draws = s.draws := rfl

@[simp] theorem resetBlock_hook (s : State) : (resetBlock s).hook = false := rfl
@[simp] theorem resetBlock_halted (s : State) : (resetBlock s).halted = false := rfl
@[simp] theorem resetBlock_params (s : State) : (resetBlock s).params = s.params := rfl
@[simp] theorem resetBlock_port (s : State) : (resetBlock s).port = s.port := rfl
@[simp] theorem resetBlock_responses (s : State) : (resetBlock s).responses = s.responses := rfl
@[simp] theorem resetBlock_diags (s : State) : (resetBlock s).diags = s.diags := rfl
@[simp] theorem resetBlock_draws (s : State) : (resetBlock s).draws = s.draws := rfl

@[simp] theorem respond_hook (r : Response) (s : State) : (respond r s).hook = s.hook := rfl
@[simp] theorem respond_halted (r : Response) (s : State) : (respond r s).halted = s.halted := rfl
@[simp] theorem respond_params (r : Response) (s : State) : (respond r s).params = s.params := rfl
@[simp] theorem respond_port (r : Response) (s : State) : (respond r s).port = s.port := rfl
@[simp] theorem respond_responses (r : Response) (s : State) : (respond r s).responses = s.responses ++ [r] := rfl
@[simp] theorem respond_diags (r : Response) (s : State) : (respond r s).diags = s.diags := rfl
@[simp] theorem respond_draws (r : Response) (s : State) : (respond r s).draws = s.draws := rfl

@[simp] theorem emitDiag_hook (code : FaultCode) (s : State) : (emitDiag code s).hook = s.hook := rfl
@[simp] theorem emitDiag_halted (code : FaultCode) (s : State) : (emitDiag code s).halted = s.halted := rfl
@[simp] theorem emitDiag_params (code : FaultCode) (s : State) : (emitDiag code s).params = s.params := rfl
@[simp] theorem emitDiag_port (code : FaultCode) (s : State) : (emitDiag code s).port = s.port := rfl
@[simp] theorem emitDiag_responses (code : FaultCode) (s : State) : (emitDiag code s).responses = s.responses := rfl
@[simp] theorem emitDiag_diags (code : FaultCode) (s : State) : (emitDiag code s).diags = s.diags ++ [⟨code, Config.diagContent s.draws (faultStatus code)⟩] := rfl
@[simp] theorem emitDiag_draws (code : FaultCode) (s : State) : (emitDiag code s).draws = s.draws + 1 := rfl

@[simp] theorem offerRequest_hook (r : Request) (s : State) : (offerRequest r s).hook = s.hook := rfl
@[simp] theorem offerRequest_halted (r : Request) (s : State) : (offerRequest r s).halted = s.halted := rfl
@[simp] theorem offerRequest_params (r : Request) (s : State) : (offerRequest r s).params = s.params := rfl
@[simp] theorem offerRequest_port (r : Request) (s : State) : (offerRequest r s).port = .request r :: s.port := rfl
@[simp] theorem offerRequest_responses (r : Request) (s : State) : (offerRequest r s).responses = s.responses := rfl
@[simp] theorem offerRequest_diags (r : Request) (s : State) : (offerRequest r s).diags = s.diags := rfl
@[simp] theorem offerRequest_draws (r : Request) (s : State) : (offerRequest r s).draws = s.draws := rfl

@[simp] theorem abandon_hook (s t : State) : (abandon s t).hook = false := rfl
@[simp] theorem abandon_halted (s t : State) : (abandon s t).halted = false := rfl
@[simp] theorem abandon_params (s t : State) : (abandon s t).params = s.params := rfl
@[simp] theorem abandon_port (s t : State) : (abandon s t).port = s.port := rfl
@[simp] theorem abandon_responses (s t : State) : (abandon s t).responses = s.responses := rfl
@[simp] theorem abandon_diags (s t : State) : (abandon s t).diags = if Config.abandonedDiagSeen s.draws = true then t.diags else s.diags := rfl
@[simp] theorem abandon_draws (s t : State) : (abandon s t).draws = t.draws + 1 := rfl

end Sys2Proof.Machine
end

