-- ==== Sys2Proof/Laws/Ops.lean ====
section
/-! SUPPORT. For each shared operation, everything it can do, said once; and what every instruction can do. -/

namespace Sys2Proof.Machine

/-! ## Fault entry (R171) -/

@[simp] theorem diagnose_hook (code : FaultCode) (s : State) : (diagnose code s).hook = s.hook := by
  unfold diagnose; split <;> rfl
@[simp] theorem diagnose_halted (code : FaultCode) (s : State) : (diagnose code s).halted = s.halted := by
  unfold diagnose; split <;> rfl
@[simp] theorem diagnose_params (code : FaultCode) (s : State) : (diagnose code s).params = s.params := by
  unfold diagnose; split <;> rfl
@[simp] theorem diagnose_port (code : FaultCode) (s : State) : (diagnose code s).port = s.port := by
  unfold diagnose; split <;> rfl
@[simp] theorem diagnose_responses (code : FaultCode) (s : State) : (diagnose code s).responses = s.responses := by
  unfold diagnose; split <;> rfl

theorem diagnose_diags (code : FaultCode) (s : State) : (diagnose code s).diags =
    if s.hook = true ∧ code ≠ .halted then s.diags ++ [⟨code, Config.diagContent s.draws (faultStatus code)⟩]
    else s.diags := by
  unfold diagnose; split <;> rfl

theorem diagnose_draws (code : FaultCode) (s : State) : (diagnose code s).draws =
    if s.hook = true ∧ code ≠ .halted then s.draws + 1 else s.draws := by
  unfold diagnose; split <;> rfl

@[simp] theorem haltOnDefect_hook (code : FaultCode) (s : State) : (haltOnDefect code s).hook = s.hook := by
  unfold haltOnDefect; split <;> rfl
@[simp] theorem haltOnDefect_params (code : FaultCode) (s : State) : (haltOnDefect code s).params = s.params := by
  unfold haltOnDefect; split <;> rfl
@[simp] theorem haltOnDefect_port (code : FaultCode) (s : State) : (haltOnDefect code s).port = s.port := by
  unfold haltOnDefect; split <;> rfl
@[simp] theorem haltOnDefect_responses (code : FaultCode) (s : State) : (haltOnDefect code s).responses = s.responses := by
  unfold haltOnDefect; split <;> rfl
@[simp] theorem haltOnDefect_diags (code : FaultCode) (s : State) : (haltOnDefect code s).diags = s.diags := by
  unfold haltOnDefect; split <;> rfl
@[simp] theorem haltOnDefect_draws (code : FaultCode) (s : State) : (haltOnDefect code s).draws = s.draws := by
  unfold haltOnDefect; split <;> rfl

theorem haltOnDefect_halted (code : FaultCode) (s : State) : (haltOnDefect code s).halted =
    if s.params.abortOnDefect = true ∧ code ≠ .halted then true else s.halted := by
  unfold haltOnDefect; split <;> rfl

@[simp] theorem raise_hook (code : FaultCode) (s : State) : (raise code s).hook = s.hook := by simp [raise]
@[simp] theorem raise_params (code : FaultCode) (s : State) : (raise code s).params = s.params := by simp [raise]
@[simp] theorem raise_port (code : FaultCode) (s : State) : (raise code s).port = s.port := by simp [raise]
@[simp] theorem raise_responses (code : FaultCode) (s : State) :
    (raise code s).responses = s.responses ++ [.fault code] := by simp [raise]

theorem raise_halted (code : FaultCode) (s : State) : (raise code s).halted =
    if s.params.abortOnDefect = true ∧ code ≠ .halted then true else s.halted := by
  simp [raise, haltOnDefect_halted]

theorem raise_diags (code : FaultCode) (s : State) : (raise code s).diags =
    if s.hook = true ∧ code ≠ .halted then s.diags ++ [⟨code, Config.diagContent s.draws (faultStatus code)⟩]
    else s.diags := by
  simp [raise, diagnose_diags]

theorem raise_draws (code : FaultCode) (s : State) : (raise code s).draws =
    if s.hook = true ∧ code ≠ .halted then s.draws + 1 else s.draws := by
  simp [raise, diagnose_draws]

/-! ## The end of an operation and the gate (R160, R180) -/

/-- The response an answer turns into (R71). -/
def responseOf : Except FaultCode OkPayload → Response
  | .ok payload => .ok payload
  | .error code => .fault code

@[simp] theorem finish_hook (a : Except FaultCode OkPayload) (s : State) : (finish a s).hook = s.hook := by
  cases a <;> simp [finish]
@[simp] theorem finish_params (a : Except FaultCode OkPayload) (s : State) : (finish a s).params = s.params := by
  cases a <;> simp [finish]
@[simp] theorem finish_port (a : Except FaultCode OkPayload) (s : State) : (finish a s).port = s.port := by
  cases a <;> simp [finish]
@[simp] theorem finish_responses (a : Except FaultCode OkPayload) (s : State) :
    (finish a s).responses = s.responses ++ [responseOf a] := by
  cases a <;> simp [finish, responseOf]

theorem finish_halted (a : Except FaultCode OkPayload) (s : State) : (finish a s).halted =
    match a with
    | .ok _ => s.halted
    | .error code => if s.params.abortOnDefect = true ∧ code ≠ .halted then true else s.halted := by
  cases a <;> simp [finish, raise_halted]

theorem finish_diags (a : Except FaultCode OkPayload) (s : State) : (finish a s).diags =
    match a with
    | .ok _ => s.diags
    | .error code => if s.hook = true ∧ code ≠ .halted then
        s.diags ++ [⟨code, Config.diagContent s.draws (faultStatus code)⟩] else s.diags := by
  cases a <;> simp [finish, raise_diags]

theorem finish_draws (a : Except FaultCode OkPayload) (s : State) : (finish a s).draws =
    match a with
    | .ok _ => s.draws
    | .error code => if s.hook = true ∧ code ≠ .halted then s.draws + 1 else s.draws := by
  cases a <;> simp [finish, raise_draws]

/-- Past the gate an operation is its body; at the gate it is ERR_HALTED. -/
theorem gated_of_running (body : State → State) {s : State} (h : s.halted = false) : gated body s = body s := by
  simp [gated, h]

theorem gated_of_halted (body : State → State) {s : State} (h : s.halted = true) :
    gated body s = raise .halted s := by
  simp [gated, h]

/-- ERR_HALTED's entry changes nothing but the responses (R171, R180). -/
theorem raise_halted_fault (s : State) : raise .halted s = { s with responses := s.responses ++ [.fault .halted] } := by
  simp [raise, diagnose, haltOnDefect, respond]

theorem perform_of_running (a : Except FaultCode OkPayload) {s : State} (h : s.halted = false) :
    perform a s = .next (finish a s) := by
  simp [perform, gated_of_running _ h]

/-! ## What every instruction can do -/

/-- What an instruction answers past the gate, from the configuration alone (R58): the operation's answer, INIT_HOOK's
being OK with no payload. -/
def answerOf (i : Instr) (p : Params) : Except FaultCode OkPayload :=
  match i with
  | .irdec w => irdecAnswer p w
  | .irenc f => irencAnswer p f
  | .rescueV1 data => rescueV1Answer Config.collaborators p data
  | .rescueV2 data => rescueV2Answer Config.collaborators p data
  | .rescueV3 data => rescueV3Answer Config.collaborators p data
  | .initHook => .ok .absent
  | .illegalCmd6 _ => .error .illegalCmd
  | .illegalCmd7 _ => .error .illegalCmd
  | .ir w => irdecAnswer p w
  | .cf0 w => irdecAnswer p (withField Config.cfOpBitsRange 0 w)
  | .cf1 w => irdecAnswer p (withField Config.cfOpBitsRange 1 w)
  | .cf2 w => irdecAnswer p (withField Config.cfOpBitsRange 2 w)
  | .cf3 w => irdecAnswer p (withField Config.cfOpBitsRange 3 w)
  | .cf4 w => irdecAnswer p (withField Config.cfOpBitsRange 4 w)
  | .cf5 w => irdecAnswer p (withField Config.cfOpBitsRange 5 w)
  | .cf6 w => irdecAnswer p (withField Config.cfOpBitsRange 6 w)
  | .cf7 w => irdecAnswer p (withField Config.cfOpBitsRange 7 w)
  | .ld0 w => irdecAnswer p (withField Config.ldOpBitsRange 0 w)
  | .ld1 w => irdecAnswer p (withField Config.ldOpBitsRange 1 w)
  | .ld2 w => irdecAnswer p (withField Config.ldOpBitsRange 2 w)
  | .ld3 w => irdecAnswer p (withField Config.ldOpBitsRange 3 w)
  | .ld4 w => irdecAnswer p (withField Config.ldOpBitsRange 4 w)
  | .ld5 w => irdecAnswer p (withField Config.ldOpBitsRange 5 w)
  | .ld6 w => irdecAnswer p (withField Config.ldOpBitsRange 6 w)
  | .ld7 w => irdecAnswer p (withField Config.ldOpBitsRange 7 w)
  | .ld8 w => irdecAnswer p (withField Config.ldOpBitsRange 8 w)
  | .ld9 w => irdecAnswer p (withField Config.ldOpBitsRange 9 w)
  | .ld10 w => irdecAnswer p (withField Config.ldOpBitsRange 10 w)
  | .ld11 w => irdecAnswer p (withField Config.ldOpBitsRange 11 w)
  | .ld12 w => irdecAnswer p (withField Config.ldOpBitsRange 12 w)
  | .ld13 w => irdecAnswer p (withField Config.ldOpBitsRange 13 w)
  | .ld14 w => irdecAnswer p (withField Config.ldOpBitsRange 14 w)
  | .ld15 w => irdecAnswer p (withField Config.ldOpBitsRange 15 w)
  | .ld16 w => irdecAnswer p (withField Config.ldOpBitsRange 16 w)
  | .ld17 w => irdecAnswer p (withField Config.ldOpBitsRange 17 w)
  | .ld18 w => irdecAnswer p (withField Config.ldOpBitsRange 18 w)
  | .ld19 w => irdecAnswer p (withField Config.ldOpBitsRange 19 w)
  | .ld20 w => irdecAnswer p (withField Config.ldOpBitsRange 20 w)
  | .ld21 w => irdecAnswer p (withField Config.ldOpBitsRange 21 w)
  | .ld22 w => irdecAnswer p (withField Config.ldOpBitsRange 22 w)
  | .ld23 w => irdecAnswer p (withField Config.ldOpBitsRange 23 w)
  | .ld24 w => irdecAnswer p (withField Config.ldOpBitsRange 24 w)
  | .ld25 w => irdecAnswer p (withField Config.ldOpBitsRange 25 w)
  | .ld26 w => irdecAnswer p (withField Config.ldOpBitsRange 26 w)
  | .ld27 w => irdecAnswer p (withField Config.ldOpBitsRange 27 w)
  | .ld28 w => irdecAnswer p (withField Config.ldOpBitsRange 28 w)
  | .ld29 w => irdecAnswer p (withField Config.ldOpBitsRange 29 w)
  | .ld30 w => irdecAnswer p (withField Config.ldOpBitsRange 30 w)
  | .ld31 w => irdecAnswer p (withField Config.ldOpBitsRange 31 w)
  | .hd0 w => irdecAnswer p (withField Config.hdOpBitsRange 0 w)
  | .hd1 w => irdecAnswer p (withField Config.hdOpBitsRange 1 w)
  | .hd2 w => irdecAnswer p (withField Config.hdOpBitsRange 2 w)
  | .hd3 w => irdecAnswer p (withField Config.hdOpBitsRange 3 w)

/-- Every instruction but INIT_HOOK is one shared operation on its answer. -/
theorem exec_eq_perform (i : Instr) (s : State) (h : i ≠ .initHook) : exec i s = perform (answerOf i s.params) s := by
  cases i <;> first | rfl | exact absurd rfl h

/-- INIT_HOOK (R150). -/
theorem exec_initHook (s : State) :
    exec .initHook s = .next (gated (fun s => respond (.ok .absent) (setHook s)) s) := rfl

/-- Every instruction answers a next state (R71): the gate before its body. -/
theorem exec_eq_gated (i : Instr) (s : State) : exec i s =
    .next (gated (if i = .initHook then fun s => respond (.ok .absent) (setHook s)
      else finish (answerOf i s.params)) s) := by
  by_cases h : i = .initHook
  · subst h; rfl
  · simp [exec_eq_perform i s h, perform, h]

end Sys2Proof.Machine
end

