-- ==== Sys2Proof/Laws/PerInstr.lean ====
section
/-! SUPPORT. A statement about the syntax of each instruction: the encoding of a well-formed instruction is a request the
host may issue (R70, R200). -/

namespace Sys2Proof.Laws

/-- In every configuration in which the instruction is well formed, its encoding fits the request format. -/
def EncodingFits.Statement (i : Instr) : Prop := ∀ p : Params, i.wf p = true → (encode i).fits p = true

/-- A row of the IR32 format is encoded as an IRDEC request whose word fits. -/
theorem EncodingFits.of_word {p : Params} {reading : Option Reading} {w : Nat} (h : w < 2 ^ p.irWidth) :
    (Request.fits p ⟨0, .word reading w⟩) = true := by
  simpa [Request.fits] using h

theorem EncodingFits.irdec (w : Nat) : EncodingFits.Statement (.irdec w) := fun _ h => EncodingFits.of_word (of_decide_eq_true h)
theorem EncodingFits.irenc (f : IrFields) : EncodingFits.Statement (.irenc f) := fun _ h => h
theorem EncodingFits.rescueV1 (data : List Byte) : EncodingFits.Statement (.rescueV1 data) := fun _ _ => rfl
theorem EncodingFits.rescueV2 (data : List Byte) : EncodingFits.Statement (.rescueV2 data) := fun _ _ => rfl
theorem EncodingFits.rescueV3 (data : List Byte) : EncodingFits.Statement (.rescueV3 data) := fun _ _ => rfl
theorem EncodingFits.illegalCmd6 (payload : Payload) : EncodingFits.Statement (.illegalCmd6 payload) := fun _ _ => rfl
theorem EncodingFits.illegalCmd7 (payload : Payload) : EncodingFits.Statement (.illegalCmd7 payload) := fun _ _ => rfl
theorem EncodingFits.initHook : EncodingFits.Statement .initHook := fun _ _ => rfl
theorem EncodingFits.ir (w : Nat) : EncodingFits.Statement (.ir w) :=
  fun _ h => EncodingFits.of_word (of_decide_eq_true (Bool.and_eq_true_iff.mp h).1)
theorem EncodingFits.cf0 (w : Nat) : EncodingFits.Statement (.cf0 w) :=
  fun _ h => EncodingFits.of_word (of_decide_eq_true (Bool.and_eq_true_iff.mp h).1)
theorem EncodingFits.cf1 (w : Nat) : EncodingFits.Statement (.cf1 w) :=
  fun _ h => EncodingFits.of_word (of_decide_eq_true (Bool.and_eq_true_iff.mp h).1)
theorem EncodingFits.cf2 (w : Nat) : EncodingFits.Statement (.cf2 w) :=
  fun _ h => EncodingFits.of_word (of_decide_eq_true (Bool.and_eq_true_iff.mp h).1)
theorem EncodingFits.cf3 (w : Nat) : EncodingFits.Statement (.cf3 w) :=
  fun _ h => EncodingFits.of_word (of_decide_eq_true (Bool.and_eq_true_iff.mp h).1)
theorem EncodingFits.cf4 (w : Nat) : EncodingFits.Statement (.cf4 w) :=
  fun _ h => EncodingFits.of_word (of_decide_eq_true (Bool.and_eq_true_iff.mp h).1)
theorem EncodingFits.cf5 (w : Nat) : EncodingFits.Statement (.cf5 w) :=
  fun _ h => EncodingFits.of_word (of_decide_eq_true (Bool.and_eq_true_iff.mp h).1)
theorem EncodingFits.cf6 (w : Nat) : EncodingFits.Statement (.cf6 w) :=
  fun _ h => EncodingFits.of_word (of_decide_eq_true (Bool.and_eq_true_iff.mp h).1)
theorem EncodingFits.cf7 (w : Nat) : EncodingFits.Statement (.cf7 w) :=
  fun _ h => EncodingFits.of_word (of_decide_eq_true (Bool.and_eq_true_iff.mp h).1)
theorem EncodingFits.ld0 (w : Nat) : EncodingFits.Statement (.ld0 w) :=
  fun _ h => EncodingFits.of_word (of_decide_eq_true (Bool.and_eq_true_iff.mp h).1)
theorem EncodingFits.ld1 (w : Nat) : EncodingFits.Statement (.ld1 w) :=
  fun _ h => EncodingFits.of_word (of_decide_eq_true (Bool.and_eq_true_iff.mp h).1)
theorem EncodingFits.ld2 (w : Nat) : EncodingFits.Statement (.ld2 w) :=
  fun _ h => EncodingFits.of_word (of_decide_eq_true (Bool.and_eq_true_iff.mp h).1)
theorem EncodingFits.ld3 (w : Nat) : EncodingFits.Statement (.ld3 w) :=
  fun _ h => EncodingFits.of_word (of_decide_eq_true (Bool.and_eq_true_iff.mp h).1)
theorem EncodingFits.ld4 (w : Nat) : EncodingFits.Statement (.ld4 w) :=
  fun _ h => EncodingFits.of_word (of_decide_eq_true (Bool.and_eq_true_iff.mp h).1)
theorem EncodingFits.ld5 (w : Nat) : EncodingFits.Statement (.ld5 w) :=
  fun _ h => EncodingFits.of_word (of_decide_eq_true (Bool.and_eq_true_iff.mp h).1)
theorem EncodingFits.ld6 (w : Nat) : EncodingFits.Statement (.ld6 w) :=
  fun _ h => EncodingFits.of_word (of_decide_eq_true (Bool.and_eq_true_iff.mp h).1)
theorem EncodingFits.ld7 (w : Nat) : EncodingFits.Statement (.ld7 w) :=
  fun _ h => EncodingFits.of_word (of_decide_eq_true (Bool.and_eq_true_iff.mp h).1)
theorem EncodingFits.ld8 (w : Nat) : EncodingFits.Statement (.ld8 w) :=
  fun _ h => EncodingFits.of_word (of_decide_eq_true (Bool.and_eq_true_iff.mp h).1)
theorem EncodingFits.ld9 (w : Nat) : EncodingFits.Statement (.ld9 w) :=
  fun _ h => EncodingFits.of_word (of_decide_eq_true (Bool.and_eq_true_iff.mp h).1)
theorem EncodingFits.ld10 (w : Nat) : EncodingFits.Statement (.ld10 w) :=
  fun _ h => EncodingFits.of_word (of_decide_eq_true (Bool.and_eq_true_iff.mp h).1)
theorem EncodingFits.ld11 (w : Nat) : EncodingFits.Statement (.ld11 w) :=
  fun _ h => EncodingFits.of_word (of_decide_eq_true (Bool.and_eq_true_iff.mp h).1)
theorem EncodingFits.ld12 (w : Nat) : EncodingFits.Statement (.ld12 w) :=
  fun _ h => EncodingFits.of_word (of_decide_eq_true (Bool.and_eq_true_iff.mp h).1)
theorem EncodingFits.ld13 (w : Nat) : EncodingFits.Statement (.ld13 w) :=
  fun _ h => EncodingFits.of_word (of_decide_eq_true (Bool.and_eq_true_iff.mp h).1)
theorem EncodingFits.ld14 (w : Nat) : EncodingFits.Statement (.ld14 w) :=
  fun _ h => EncodingFits.of_word (of_decide_eq_true (Bool.and_eq_true_iff.mp h).1)
theorem EncodingFits.ld15 (w : Nat) : EncodingFits.Statement (.ld15 w) :=
  fun _ h => EncodingFits.of_word (of_decide_eq_true (Bool.and_eq_true_iff.mp h).1)
theorem EncodingFits.ld16 (w : Nat) : EncodingFits.Statement (.ld16 w) :=
  fun _ h => EncodingFits.of_word (of_decide_eq_true (Bool.and_eq_true_iff.mp h).1)
theorem EncodingFits.ld17 (w : Nat) : EncodingFits.Statement (.ld17 w) :=
  fun _ h => EncodingFits.of_word (of_decide_eq_true (Bool.and_eq_true_iff.mp h).1)
theorem EncodingFits.ld18 (w : Nat) : EncodingFits.Statement (.ld18 w) :=
  fun _ h => EncodingFits.of_word (of_decide_eq_true (Bool.and_eq_true_iff.mp h).1)
theorem EncodingFits.ld19 (w : Nat) : EncodingFits.Statement (.ld19 w) :=
  fun _ h => EncodingFits.of_word (of_decide_eq_true (Bool.and_eq_true_iff.mp h).1)
theorem EncodingFits.ld20 (w : Nat) : EncodingFits.Statement (.ld20 w) :=
  fun _ h => EncodingFits.of_word (of_decide_eq_true (Bool.and_eq_true_iff.mp h).1)
theorem EncodingFits.ld21 (w : Nat) : EncodingFits.Statement (.ld21 w) :=
  fun _ h => EncodingFits.of_word (of_decide_eq_true (Bool.and_eq_true_iff.mp h).1)
theorem EncodingFits.ld22 (w : Nat) : EncodingFits.Statement (.ld22 w) :=
  fun _ h => EncodingFits.of_word (of_decide_eq_true (Bool.and_eq_true_iff.mp h).1)
theorem EncodingFits.ld23 (w : Nat) : EncodingFits.Statement (.ld23 w) :=
  fun _ h => EncodingFits.of_word (of_decide_eq_true (Bool.and_eq_true_iff.mp h).1)
theorem EncodingFits.ld24 (w : Nat) : EncodingFits.Statement (.ld24 w) :=
  fun _ h => EncodingFits.of_word (of_decide_eq_true (Bool.and_eq_true_iff.mp h).1)
theorem EncodingFits.ld25 (w : Nat) : EncodingFits.Statement (.ld25 w) :=
  fun _ h => EncodingFits.of_word (of_decide_eq_true (Bool.and_eq_true_iff.mp h).1)
theorem EncodingFits.ld26 (w : Nat) : EncodingFits.Statement (.ld26 w) :=
  fun _ h => EncodingFits.of_word (of_decide_eq_true (Bool.and_eq_true_iff.mp h).1)
theorem EncodingFits.ld27 (w : Nat) : EncodingFits.Statement (.ld27 w) :=
  fun _ h => EncodingFits.of_word (of_decide_eq_true (Bool.and_eq_true_iff.mp h).1)
theorem EncodingFits.ld28 (w : Nat) : EncodingFits.Statement (.ld28 w) :=
  fun _ h => EncodingFits.of_word (of_decide_eq_true (Bool.and_eq_true_iff.mp h).1)
theorem EncodingFits.ld29 (w : Nat) : EncodingFits.Statement (.ld29 w) :=
  fun _ h => EncodingFits.of_word (of_decide_eq_true (Bool.and_eq_true_iff.mp h).1)
theorem EncodingFits.ld30 (w : Nat) : EncodingFits.Statement (.ld30 w) :=
  fun _ h => EncodingFits.of_word (of_decide_eq_true (Bool.and_eq_true_iff.mp h).1)
theorem EncodingFits.ld31 (w : Nat) : EncodingFits.Statement (.ld31 w) :=
  fun _ h => EncodingFits.of_word (of_decide_eq_true (Bool.and_eq_true_iff.mp h).1)
theorem EncodingFits.hd0 (w : Nat) : EncodingFits.Statement (.hd0 w) :=
  fun _ h => EncodingFits.of_word (of_decide_eq_true (Bool.and_eq_true_iff.mp h).1)
theorem EncodingFits.hd1 (w : Nat) : EncodingFits.Statement (.hd1 w) :=
  fun _ h => EncodingFits.of_word (of_decide_eq_true (Bool.and_eq_true_iff.mp h).1)
theorem EncodingFits.hd2 (w : Nat) : EncodingFits.Statement (.hd2 w) :=
  fun _ h => EncodingFits.of_word (of_decide_eq_true (Bool.and_eq_true_iff.mp h).1)
theorem EncodingFits.hd3 (w : Nat) : EncodingFits.Statement (.hd3 w) :=
  fun _ h => EncodingFits.of_word (of_decide_eq_true (Bool.and_eq_true_iff.mp h).1)

end Sys2Proof.Laws
end

