-- ==== Sys2Proof/Laws/Step.lean ====
section
/-! SUPPORT. What a step can do, said once: nothing, a reset, an instruction, or an abandoned instruction. -/

namespace Sys2Proof.Machine

/-- What serving a request gives when it gives a next state. -/
theorem serveRequest_next {r : Request} {s t : State} (h : serveRequest r s = .next t) :
    ∃ i, decode s.params r = .ok i ∧ exec i s = .next t := by
  unfold serveRequest at h
  split at h
  · next i hi => exact ⟨i, hi, h⟩
  · cases h

/-- Every way a step reaches a next state. -/
theorem step_next_cases {s t : State} (h : step s = .next t) : layoutOk s.params = true ∧
    ((s.port = [] ∧ t = s) ∨
     (∃ rest, s.port = .reset :: rest ∧ t = resetBlock { s with port := rest }) ∨
     (∃ r rest i, s.port = .request r :: rest ∧ decode s.params r = .ok i ∧
        exec i { s with port := rest } = .next t) ∨
     (∃ r rest i u, s.port = .abandoned r :: rest ∧ decode s.params r = .ok i ∧
        exec i { s with port := rest } = .next u ∧ t = abandon { s with port := rest } u)) := by
  unfold step at h
  split at h
  · next hl =>
    refine ⟨hl, ?_⟩
    unfold takeEvent at h
    split at h
    · next hp => cases h; exact .inl ⟨hp, rfl⟩
    · next event rest hp =>
      cases event with
      | reset => cases h; exact .inr (.inl ⟨rest, hp, rfl⟩)
      | request r =>
        obtain ⟨i, hi, hx⟩ := serveRequest_next (s := { s with port := rest }) h
        exact .inr (.inr (.inl ⟨r, rest, i, hp, hi, hx⟩))
      | abandoned r =>
        simp only [serve, serveAbandoned] at h
        cases hq : serveRequest r { s with port := rest } with
        | next u =>
          rw [hq] at h
          cases h
          obtain ⟨i, hi, hx⟩ := serveRequest_next hq
          exact .inr (.inr (.inr ⟨r, rest, i, u, hp, hi, hx, rfl⟩))
        | fault e => rw [hq] at h; cases h
        | refused e => rw [hq] at h; cases h
  · cases h

/-! ## Runs -/

@[simp] theorem run_zero (s : State) : Host.Core.run core 0 s = .next s := rfl

/-- A run goes on from the next state of its first step. -/
theorem run_succ_of_next {s t : State} (h : step s = .next t) (k : Nat) :
    Host.Core.run core (k + 1) s = Host.Core.run core k t := by
  have : core.step s = .next t := h
  simp only [Host.Core.run, this]

/-- A run stops where its first step faults. -/
theorem run_succ_of_fault {s : State} {e : Fault} (h : step s = .fault e) (k : Nat) :
    Host.Core.run core (k + 1) s = .fault e := by
  have : core.step s = .fault e := h
  simp only [Host.Core.run, this]

/-- A run stops where its first step is refused. -/
theorem run_succ_of_refused {s : State} {e : Refusal} (h : step s = .refused e) (k : Nat) :
    Host.Core.run core (k + 1) s = .refused e := by
  have : core.step s = .refused e := h
  simp only [Host.Core.run, this]

end Sys2Proof.Machine
end

