-- ==== Sys2Proof/Laws/Text.lean ====
section
/-! SUPPORT. What the text stages do (R80, R81, R120 to R123): the token check as one condition, and what a list of tokens
that passes it turns into. -/

namespace Sys2Proof.Machine

/-- A token the check at width `W` accepts (R122). -/
abbrev GoodToken (W : Nat) (t : List Byte) : Prop := tokenWellFormed t = true ∧ tokenValue t < 2 ^ W

theorem parseToken_of_good {W : Nat} {t : List Byte} (h : GoodToken W t) :
    parseToken W t = .ok (BitVec.ofNat W (tokenValue t)) := if_pos h

theorem parseToken_of_bad {W : Nat} {t : List Byte} (h : ¬ GoodToken W t) : parseToken W t = .error .parse := if_neg h

/-- The token check passes exactly when every token is good, and then gives their values in order. -/
theorem parseTokens_eq (W : Nat) (ts : List (List Byte)) : parseTokens W ts =
    if ∀ t ∈ ts, GoodToken W t then .ok (ts.map (fun t => BitVec.ofNat W (tokenValue t))) else .error .parse := by
  induction ts with
  | nil => simp [parseTokens]
  | cons t ts ih =>
    by_cases ht : GoodToken W t
    · by_cases hts : ∀ u ∈ ts, GoodToken W u
      · have : ∀ u ∈ t :: ts, GoodToken W u := List.forall_mem_cons.mpr ⟨ht, hts⟩
        rw [if_pos this]
        simp only [parseTokens, parseToken_of_good ht, ih, if_pos hts, List.map_cons]
      · have : ¬ ∀ u ∈ t :: ts, GoodToken W u := fun h => hts (List.forall_mem_cons.mp h).2
        rw [if_neg this]
        simp only [parseTokens, parseToken_of_good ht, ih, if_neg hts]
    · have : ¬ ∀ u ∈ t :: ts, GoodToken W u := fun h => ht (List.forall_mem_cons.mp h).1
      rw [if_neg this]
      simp only [parseTokens, parseToken_of_bad ht]

/-- The text stages of RESCUE_V1 and RESCUE_V2 as one chain of tests (R120). -/
theorem parseText_eq (p : Params) (arity W : Nat) (T : List Byte) : parseText p arity W T =
    if tooLong p T = true then .error .tooLong
    else if (tokens T).length ≠ arity then .error .arity
    else if ∀ t ∈ tokens T, GoodToken W t then .ok ((tokens T).map (fun t => BitVec.ofNat W (tokenValue t)))
    else .error .parse := by
  unfold parseText
  split
  · rfl
  · split
    · rfl
    · exact parseTokens_eq W _

/-- A text that parses has as many values as the arity asks. -/
theorem parseText_length {p : Params} {arity W : Nat} {T : List Byte} {v : List (BitVec W)}
    (h : parseText p arity W T = .ok v) : v.length = arity := by
  rw [parseText_eq] at h
  split at h
  · cases h
  · split at h
    · cases h
    · next hl =>
      split at h
      · cases h
        simpa using not_not.mp hl
      · cases h

/-- Splitting never gives the empty list of tokens. -/
theorem splitAtCommas_ne_nil (T : List Byte) : splitAtCommas T ≠ [] := by
  cases T with
  | nil => simp [splitAtCommas]
  | cons b rest =>
    simp only [splitAtCommas]
    split
    · simp
    · split <;> simp

theorem littleEndian_length (n v : Nat) : (littleEndian n v).length = n := by
  induction n generalizing v with
  | zero => rfl
  | succ n ih => simp [littleEndian, ih]

/-- Byte `j` of the little-endian bytes of a value (R51). -/
theorem littleEndian_eq_map (n v : Nat) :
    littleEndian n v = (List.range n).map (fun j => BitVec.ofNat 8 (v / 2 ^ (8 * j) % 256)) := by
  induction n generalizing v with
  | zero => rfl
  | succ n ih =>
    rw [littleEndian, ih, List.range_succ_eq_map, List.map_cons, List.map_map]
    congr 1
    · apply BitVec.eq_of_toNat_eq
      simp
    · apply List.map_congr_left
      intro j _
      simp only [Function.comp, Nat.succ_eq_add_one]
      congr 2
      rw [Nat.div_div_eq_div_mul, show 256 = 2 ^ 8 from rfl, ← pow_add]
      congr 2
      ring

end Sys2Proof.Machine
end

