-- ==== Sys2Proof/Tests/Slice0.lean ====
section
/-! SUPPORT. The model's own tests. Expected results come from spec/95_test_vectors.md (V<n>, P<n>, S<n>), from the encodings
of spec/opcode_table.json, or by hand from the rule named. Then, for every statement with hypotheses, a witness
`test_witness_<statement>` that meets them. -/

namespace Sys2Proof.Tests

open Sys2Proof.Machine

/-! ## Helpers -/

/-- The bytes of an ASCII text (R82). -/
def ascii (t : String) : List Byte := t.toList.map (fun c => BitVec.ofNat 8 c.toNat)

/-- A text of one repeated byte, `n` times. -/
def zeros (n : Nat) : List Byte := List.replicate n 0

/-- The stand-in H_BYTES_T (95_test_vectors.md part 0): byte `i` is the exclusive or of the bytes at `i` modulo 32. -/
def xorColumn (b : List Byte) (i : Nat) : Byte :=
  b.zipIdx.foldl (fun acc q => if q.2 % 32 = i then acc ^^^ q.1 else acc) 0

/-- The stand-in H_SPONGE_T (95_test_vectors.md part 0). -/
def spongeT : List Nat → List Nat
  | [e0, e1, e2, e3, e4, e5, e6, e7] =>
    [(e0 + e4) % 1000003, (e1 + e5) % 1000003, (e2 + e6) % 1000003, (e3 + e7) % 1000003]
  | _ => []

/-- The stand-ins that keep their contract (95_test_vectors.md part 0). -/
def standIns : Collaborators Nat :=
  ⟨fun b => (List.range 32).map (xorColumn b), spongeT, fun v => v.toNat % 1000003, fun e => BitVec.ofNat 64 e⟩

/-- The stand-ins that break it: H_BYTES_SHORT and H_SPONGE_SHORT. -/
def shortStandIns : Collaborators Nat :=
  ⟨fun _ => zeros 31, fun _ => [0, 0, 0], standIns.feFromU64, standIns.feToU64⟩

/-- A state with the parameters, the two bits and the waiting events given, and nothing shown yet. -/
def st (p : Params) (hook halted : Bool) (port : List HostEvent) : State :=
  { State.reset with params := p, hook := hook, halted := halted, port := port }

/-- The default parameters with ABORT_ON_DEFECT true (V106). -/
def abortParams : Params := { abortOnDefect := true }

/-- What a run shows of an outcome (R201): HOOK, HALTED, the responses, and how many records were emitted. -/
def shown : Host.Outcome State Fault Refusal → Option (Bool × Bool × List Response × Nat)
  | .next t => some (t.hook, t.halted, t.responses, t.diags.length)
  | .fault _ => none
  | .refused _ => none

/-- The OK response with seven fields, written in the order of R101. -/
def decoded (n : BitVec 1) (s : BitVec 4) (cf : BitVec 3) (ld : BitVec 5) (hd : BitVec 2) (ctx : Nat)
    (loop : Nat) : Response := .ok (.fields ⟨n, s, cf, ld, hd, ctx, loop⟩)

/-! ## Well-formedness: an ill-formed term for each check, which the check refuses -/

/-- A word above IR_WIDTH is no word of IRDEC. -/
theorem test_wf_refuses_irdec_too_wide : (Instr.irdec (2 ^ 32)).wf Config.defaults = false := by decide
/-- A depth of IRENC that does not fit its width (R106): 5 bits for ctx_depth, 4 for loop_depth at the defaults. -/
theorem test_wf_refuses_irenc_too_wide : (Instr.irenc ⟨0, 0, 0, 0, 0, 32, 0⟩).wf Config.defaults = false ∧
    (Instr.irenc ⟨0, 0, 0, 0, 0, 0, 16⟩).wf Config.defaults = false ∧
    (Instr.irenc ⟨0, 0, 0, 0, 0, 31, 15⟩).wf Config.defaults = true := by decide
/-- The row IR has zero reserved bits (bit 24 set). -/
theorem test_wf_refuses_ir_reserved : (Instr.ir 0x01000000).wf Config.defaults = false := by decide
/-- The row IR has no bit at IR_WIDTH (only a configuration no layout assertion admits is narrower than 24). -/
theorem test_wf_refuses_ir_too_wide : (Instr.ir 0x00800000).wf { irWidth := 20 } = false := by decide
/-- CF5 refuses a word whose cf_op is 4. -/
theorem test_wf_refuses_cf_other_number : (Instr.cf5 0x00000080).wf Config.defaults = false := by decide
/-- CF5 refuses a word of its number with a reserved bit set. -/
theorem test_wf_refuses_cf_reserved : (Instr.cf5 0x800000A0).wf Config.defaults = false := by decide
/-- LD31 refuses a word whose ld_op is 30. -/
theorem test_wf_refuses_ld_other_number : (Instr.ld31 0x00001E00).wf Config.defaults = false := by decide
/-- LD31 refuses a word of its number with a reserved bit set. -/
theorem test_wf_refuses_ld_reserved : (Instr.ld31 0x01001F00).wf Config.defaults = false := by decide
/-- HD2 refuses a word whose hd_op is 1. -/
theorem test_wf_refuses_hd_other_number : (Instr.hd2 0x00002000).wf Config.defaults = false := by decide
/-- HD2 refuses a word of its number with a reserved bit set. -/
theorem test_wf_refuses_hd_reserved : (Instr.hd2 0x10004000).wf Config.defaults = false := by decide
/-- Each command refuses a payload that is not of its type, IRDEC a word and IRENC a depth that is too wide; 6 and 7 take any (R70, R77). -/
theorem test_fits_refuses_each_wrong_payload :
    [(⟨0, .absent⟩ : Request), ⟨0, .word none (2 ^ 32)⟩, ⟨1, .word none 0⟩,
      ⟨1, .fields ⟨0, 0, 0, 0, 0, 32, 0⟩⟩, ⟨1, .fields ⟨0, 0, 0, 0, 0, 0, 16⟩⟩, ⟨2, .absent⟩, ⟨3, .word none 0⟩,
      ⟨4, .fields ⟨0, 0, 0, 0, 0, 0, 0⟩⟩, ⟨5, .data []⟩, ⟨6, .data []⟩, ⟨7, .word none (2 ^ 40)⟩].map
        (Request.fits Config.defaults)
      = [false, false, false, false, false, false, false, false, false, true, true] := by decide
/-- The layout assertions refuse a register of 23 bits, overlapping depth fields, a field outside the register, and a
range that ends before it starts; they take the two fields in the other order, wider fields, an empty one, and IR_WIDTH
24 and 64 (R7, R8, R73, R108). -/
theorem test_layout_assertions :
    [({ irWidth := 23 } : Params), { loopDepthRange := ⟨19, 23⟩ }, { ctxDepthRange := ⟨14, 19⟩ },
      { ctxDepthRange := ⟨28, 33⟩ }, { ctxDepthRange := ⟨20, 15⟩ }, { ctxDepthRange := ⟨19, 24⟩, loopDepthRange := ⟨15, 19⟩ },
      { ctxDepthRange := ⟨15, 22⟩, loopDepthRange := ⟨22, 32⟩ }, { ctxDepthRange := ⟨16, 16⟩ }, { irWidth := 24 },
      { irWidth := 64, loopDepthRange := ⟨60, 64⟩ }].map layoutOk
      = [false, false, false, false, false, true, true, true, true, true] := by decide

/-! ## Decoding: a word written out from the spec's encoding for every constructor -/

/-- The eight command codes of R72, in binary, with a payload of each command's type. -/
theorem test_decode_commands :
    [(⟨0b000, .word none 0x0041A2B3⟩ : Request), ⟨0b001, .fields ⟨1, 3, 5, 17, 2, 4, 1⟩⟩, ⟨0b010, .data [0x31]⟩,
      ⟨0b011, .data [0x32]⟩, ⟨0b100, .data [0xC3, 0xA9]⟩, ⟨0b101, .absent⟩, ⟨0b110, .data [0xFF]⟩,
      ⟨0b111, .absent⟩].map (decode Config.defaults)
      = [.ok (.irdec 0x0041A2B3), .ok (.irenc ⟨1, 3, 5, 17, 2, 4, 1⟩), .ok (.rescueV1 [0x31]), .ok (.rescueV2 [0x32]),
        .ok (.rescueV3 [0xC3, 0xA9]), .ok .initHook, .ok (.illegalCmd6 (.data [0xFF])), .ok (.illegalCmd7 .absent)] := by
  decide

/-- The row IR, `00000000LLLLXXXXXHHDDDDDCCCSSSSN`, with every other field at its largest legal value (V17). -/
theorem test_decode_ir :
    [0b00000000100010000111111111111111].map (fun w => decode Config.defaults ⟨0b000, .word (some .whole) w⟩)
      = [.ok (.ir 0x00887FFF)] := by decide

/-- The rows CF0 to CF7, from the table's encodings, the other fields as in V17. -/
theorem test_decode_cf :
    [0b00000000100010000111111100011111,
      0b00000000100010000111111100111111,
      0b00000000100010000111111101011111,
      0b00000000100010000111111101111111,
      0b00000000100010000111111110011111,
      0b00000000100010000111111110111111,
      0b00000000100010000111111111011111,
      0b00000000100010000111111111111111].map (fun w => decode Config.defaults ⟨0b000, .word (some .cfOp) w⟩)
      = [.ok (.cf0 0x00887F1F), .ok (.cf1 0x00887F3F), .ok (.cf2 0x00887F5F), .ok (.cf3 0x00887F7F),
        .ok (.cf4 0x00887F9F), .ok (.cf5 0x00887FBF), .ok (.cf6 0x00887FDF), .ok (.cf7 0x00887FFF)] := by decide

/-- The rows LD0 to LD31, from the table's encodings, the other fields as in V17. -/
theorem test_decode_ld :
    [0b00000000100010000110000011111111,
      0b00000000100010000110000111111111,
      0b00000000100010000110001011111111,
      0b00000000100010000110001111111111,
      0b00000000100010000110010011111111,
      0b00000000100010000110010111111111,
      0b00000000100010000110011011111111,
      0b00000000100010000110011111111111,
      0b00000000100010000110100011111111,
      0b00000000100010000110100111111111,
      0b00000000100010000110101011111111,
      0b00000000100010000110101111111111,
      0b00000000100010000110110011111111,
      0b00000000100010000110110111111111,
      0b00000000100010000110111011111111,
      0b00000000100010000110111111111111,
      0b00000000100010000111000011111111,
      0b00000000100010000111000111111111,
      0b00000000100010000111001011111111,
      0b00000000100010000111001111111111,
      0b00000000100010000111010011111111,
      0b00000000100010000111010111111111,
      0b00000000100010000111011011111111,
      0b00000000100010000111011111111111,
      0b00000000100010000111100011111111,
      0b00000000100010000111100111111111,
      0b00000000100010000111101011111111,
      0b00000000100010000111101111111111,
      0b00000000100010000111110011111111,
      0b00000000100010000111110111111111,
      0b00000000100010000111111011111111,
      0b00000000100010000111111111111111].map (fun w => decode Config.defaults ⟨0b000, .word (some .ldOp) w⟩)
      = [.ok (.ld0 0x008860FF), .ok (.ld1 0x008861FF), .ok (.ld2 0x008862FF), .ok (.ld3 0x008863FF),
        .ok (.ld4 0x008864FF), .ok (.ld5 0x008865FF), .ok (.ld6 0x008866FF), .ok (.ld7 0x008867FF),
        .ok (.ld8 0x008868FF), .ok (.ld9 0x008869FF), .ok (.ld10 0x00886AFF), .ok (.ld11 0x00886BFF),
        .ok (.ld12 0x00886CFF), .ok (.ld13 0x00886DFF), .ok (.ld14 0x00886EFF), .ok (.ld15 0x00886FFF),
        .ok (.ld16 0x008870FF), .ok (.ld17 0x008871FF), .ok (.ld18 0x008872FF), .ok (.ld19 0x008873FF),
        .ok (.ld20 0x008874FF), .ok (.ld21 0x008875FF), .ok (.ld22 0x008876FF), .ok (.ld23 0x008877FF),
        .ok (.ld24 0x008878FF), .ok (.ld25 0x008879FF), .ok (.ld26 0x00887AFF), .ok (.ld27 0x00887BFF),
        .ok (.ld28 0x00887CFF), .ok (.ld29 0x00887DFF), .ok (.ld30 0x00887EFF), .ok (.ld31 0x00887FFF)] := by decide

/-- The rows HD0 to HD3, from the table's encodings, the other fields as in V17. -/
theorem test_decode_hd :
    [0b00000000100010000001111111111111,
      0b00000000100010000011111111111111,
      0b00000000100010000101111111111111,
      0b00000000100010000111111111111111].map (fun w => decode Config.defaults ⟨0b000, .word (some .hdOp) w⟩)
      = [.ok (.hd0 0x00881FFF), .ok (.hd1 0x00883FFF), .ok (.hd2 0x00885FFF), .ok (.hd3 0x00887FFF)] := by decide

/-- A reserved bit makes the word match no row: it is plain IRDEC (R75, R102). -/
theorem test_decode_reserved_word_is_irdec :
    decode Config.defaults ⟨0, .word (some .cfOp) 0x010000A0⟩ = .ok (.irdec 0x010000A0) := by decide
/-- What the request format excludes is rejected by name (R200). -/
theorem test_decode_rejects :
    [(⟨0, .word none 0x100000000⟩ : Request), ⟨1, .fields ⟨0, 0, 0, 0, 0, 32, 0⟩⟩, ⟨5, .data []⟩,
      ⟨2, .word none 1⟩].map (decode Config.defaults)
      = [.error .wordTooWide, .error .fieldTooWide, .error .wrongPayload, .error .wrongPayload] := by decide
/-- The table's command words, in whole bytes, and its match words V1, V5, V6, V7, V8, V9, V10. -/
theorem test_decode_table_words :
    [0, 1, 2, 3, 4, 5, 6, 7].map (decodeTableWord 8)
      = [some (.irdec 0), some (.irenc ⟨0, 0, 0, 0, 0, 0, 0⟩), some (.rescueV1 []), some (.rescueV2 []),
        some (.rescueV3 []), some .initHook, some (.illegalCmd6 .absent), some (.illegalCmd7 .absent)] ∧
    [0x00, 0x20, 0xE0, 0x0100, 0x1F00, 0x2000, 0x6000].map (decodeTableWord 32)
      = [some (.ir 0), some (.cf1 0x20), some (.cf7 0xE0), some (.ld1 0x0100), some (.ld31 0x1F00), some (.hd1 0x2000),
        some (.hd3 0x6000)] := by decide
/-- The step after reset runs the placed word: LD31 (V8), and a command (V102). -/
theorem test_step_runs_placed_word :
    shown (step (State.reset.withFetchWord 32 0x1F00)) = some (false, false, [decoded 0 0 0 31 0 0 0], 0) ∧
    shown (step (State.reset.withFetchWord 8 6)) = some (false, false, [.fault .illegalCmd], 0) := by decide
/-- An idle block does nothing (R179, R192). -/
theorem test_step_idle : shown (step State.reset) = some (false, false, [], 0) := by decide

/-! ## IRDEC and IRENC -/

/-- V2, V4, V12, V15 (bounds reached), V17 (largest legal word), V24, V25, V26. -/
theorem test_irdec_legal :
    [0x00000001, 0x0000001E, 0x00080000, 0x00800000, 0x00887FFF, 0x00345678, 0x0041A2B3, 0x001251A7].map
        (irdecAnswer Config.defaults)
      = [.ok (.fields ⟨1, 0, 0, 0, 0, 0, 0⟩), .ok (.fields ⟨0, 15, 0, 0, 0, 0, 0⟩), .ok (.fields ⟨0, 0, 0, 0, 0, 16, 0⟩),
        .ok (.fields ⟨0, 0, 0, 0, 0, 0, 8⟩), .ok (.fields ⟨1, 15, 7, 31, 3, 16, 8⟩), .ok (.fields ⟨0, 12, 3, 22, 2, 8, 3⟩),
        .ok (.fields ⟨1, 9, 5, 2, 1, 3, 4⟩), .ok (.fields ⟨1, 3, 5, 17, 2, 4, 1⟩)] := by decide
/-- V13, V16, V17a, V18, V19, V20, V21, V22, V23; and V27, V28 with SPONGE_SEL_MAX = 3. -/
theorem test_irdec_faults :
    [0x00088000, 0x00900000, 0x0088FFFF, 0x00FFFFFF, 0x00F80000, 0x01000000, 0x80000000, 0xFFFFFFFF, 0x12345678].map
        (irdecAnswer Config.defaults)
      = [.error .irCtxDepth, .error .irLoopDepth, .error .irCtxDepth, .error .irCtxDepth, .error .irLoopDepth,
        .error .irReserved, .error .irReserved, .error .irReserved, .error .irReserved] ∧
    irdecAnswer { spongeSelMax := 3 } 0x0000000A = .error .irSpongeSel ∧
    irdecAnswer { spongeSelMax := 3 } 0x00000006 = .ok (.fields ⟨0, 3, 0, 0, 0, 0, 0⟩) := by decide
/-- V30 to V34 and V39. -/
theorem test_irenc_legal :
    [(⟨0, 0, 0, 0, 0, 0, 0⟩ : IrFields), ⟨1, 3, 5, 17, 2, 4, 1⟩, ⟨1, 15, 7, 31, 3, 16, 8⟩, ⟨0, 9, 2, 21, 1, 16, 0⟩,
      ⟨1, 6, 7, 0, 3, 0, 8⟩, ⟨1, 9, 5, 2, 1, 3, 4⟩].map (irencAnswer Config.defaults)
      = [.ok (.word 0), .ok (.word 0x001251A7), .ok (.word 0x00887FFF), .ok (.word 0x00083552), .ok (.word 0x008060ED),
        .ok (.word 0x0041A2B3)] := by decide
/-- V35, V36, V37; and by R106 the selector is tested first, with SPONGE_SEL_MAX = 3. -/
theorem test_irenc_faults :
    [(⟨0, 0, 0, 0, 0, 17, 0⟩ : IrFields), ⟨0, 0, 0, 0, 0, 0, 9⟩, ⟨0, 0, 0, 0, 0, 31, 15⟩].map
        (irencAnswer Config.defaults)
      = [.error .irCtxDepth, .error .irLoopDepth, .error .irCtxDepth] ∧
    irencAnswer { spongeSelMax := 3 } ⟨0, 4, 0, 0, 0, 31, 15⟩ = .error .irSpongeSel := by decide
/-- Other depth ranges (R7, U5): a 7-bit ctx_depth at [15,22) and a 10-bit loop_depth at [22,32) still have the bounds 16
and 8 (R103), by hand from R74; with a 3-bit ctx_depth at [15,18) the bits from 22 up are reserved (R102). -/
theorem test_moved_depth_ranges :
    [16 * 2 ^ 15, 100 * 2 ^ 15, 8 * 2 ^ 22, 9 * 2 ^ 22].map
        (irdecAnswer { ctxDepthRange := ⟨15, 22⟩, loopDepthRange := ⟨22, 32⟩ })
      = [.ok (.fields ⟨0, 0, 0, 0, 0, 16, 0⟩), .error .irCtxDepth, .ok (.fields ⟨0, 0, 0, 0, 0, 0, 8⟩), .error .irLoopDepth] ∧
    [7 * 2 ^ 15 + 8 * 2 ^ 18, 2 ^ 22].map (irdecAnswer { ctxDepthRange := ⟨15, 18⟩, loopDepthRange := ⟨18, 22⟩ })
      = [.ok (.fields ⟨0, 0, 0, 0, 0, 7, 8⟩), .error .irReserved] := by decide
/-- A step of IRENC (V31). -/
theorem test_step_irenc :
    shown (step (st Config.defaults false false [.request ⟨0b001, .fields ⟨1, 3, 5, 17, 2, 4, 1⟩⟩]))
      = some (false, false, [.ok (.word 0x001251A7)], 0) := by decide

/-! ## The rows of the IR32 format: decoded, with no effect (R75, R143, R144, R145) -/

/-- CF0 to CF7: the number comes back and nothing else changes (V5, V6). -/
theorem test_exec_cf :
    (List.range 8).map (fun k => ((cfRows (32 * k))[k]?).bind (fun i => shown (exec i State.reset)))
      = (List.range 8).map (fun k => some (false, false, [decoded 0 0 (BitVec.ofNat 3 k) 0 0 0 0], 0)) := by decide
/-- LD0 to LD31 (V7, V8). -/
theorem test_exec_ld :
    (List.range 32).map (fun k => ((ldRows (256 * k))[k]?).bind (fun i => shown (exec i State.reset)))
      = (List.range 32).map (fun k => some (false, false, [decoded 0 0 0 (BitVec.ofNat 5 k) 0 0 0], 0)) := by decide
/-- HD0 to HD3 (V9, V10). -/
theorem test_exec_hd :
    (List.range 4).map (fun k => ((hdRows (8192 * k))[k]?).bind (fun i => shown (exec i State.reset)))
      = (List.range 4).map (fun k => some (false, false, [decoded 0 0 0 0 (BitVec.ofNat 2 k) 0 0], 0)) := by decide
/-- IR: the largest legal word (V17), and one whose context depth is 17 (V17a). -/
theorem test_exec_ir :
    shown (exec (.ir 0x00887FFF) State.reset) = some (false, false, [decoded 1 15 7 31 3 16 8], 0) ∧
    shown (exec (.ir 0x0088FFFF) State.reset) = some (false, false, [.fault .irCtxDepth], 0) := by decide

/-! ## Text and tokens -/

/-- V40 to V46. -/
theorem test_tokens :
    ["", "7", ",", "1,,2", "1,2,3,4,", ",1,2,3", "1, 2"].map (fun t => tokens (ascii t))
      = [[], [ascii "7"], [[], []], [ascii "1", [], ascii "2"],
        [ascii "1", ascii "2", ascii "3", ascii "4", []], [[], ascii "1", ascii "2", ascii "3"],
        [ascii "1", ascii " 2"]] := by decide
/-- The values of 95_test_vectors.md 2.3. -/
theorem test_token_values :
    ["0", "007", "255", "18446744073709551615", "18446744073709551616", "340282366920938463463374607431768211455",
      "0000000000000000000000000000000000000000000001"].map (fun t => tokenValue (ascii t))
      = [0, 7, 255, 2 ^ 64 - 1, 2 ^ 64, 2 ^ 128 - 1, 1] := by decide
/-- The tokens 95_test_vectors.md 2.3 calls not well formed (the last is a non-ASCII digit's bytes). -/
theorem test_tokens_not_well_formed :
    ([ascii "", ascii "+1", ascii "-1", ascii " 1", ascii "1 ", ascii "1_000", ascii "0x10", ascii "1e3", ascii "1.0",
      [0xD9, 0xA1]]).all (fun t => !tokenWellFormed t) = true := by decide

/-! ## RESCUE_V1 -/

/-- S1, V50, V51, V52, V53, V63. -/
theorem test_rescue_v1_digests :
    ["1,2,3,4", "01,2,3,4", "258,0,0,0",
      "1339673755198158349044581307228491536,0,340282366920938463463374607431768211455,256",
      "0,0,0,340282366920938463463374607431768211455"].map
        (fun t => rescueV1Answer standIns Config.defaults (ascii t))
      = [.ok (.bytes ([2] ++ zeros 15 ++ [6] ++ zeros 15)), .ok (.bytes ([2] ++ zeros 15 ++ [6] ++ zeros 15)),
        .ok (.bytes ([2, 1] ++ zeros 30)),
        .ok (.bytes ([0xEF, 0xF0, 0xF1, 0xF2, 0xF3, 0xF4, 0xF5, 0xF6, 0xF7, 0xF8, 0xF9, 0xFA, 0xFB, 0xFC, 0xFD, 0xFE, 0, 1]
          ++ zeros 14)),
        .ok (.bytes (zeros 16 ++ List.replicate 16 0xFF))] := by decide
/-- V54 to V62, V64; V65 with the short stand-in; V66 with MAX_INPUT_BYTES = 6. -/
theorem test_rescue_v1_faults :
    ["", "1,2,3", "1,2,3,4,5", "1,2,3,4,", "1,2,x", "1,,3,4", "1,2,x,4", " 1,2,3,4", "+1,2,3,4",
      "0,0,0,340282366920938463463374607431768211456"].map (fun t => rescueV1Answer standIns Config.defaults (ascii t))
      = [.error .arity, .error .arity, .error .arity, .error .arity, .error .arity, .error .parse, .error .parse,
        .error .parse, .error .parse, .error .parse] ∧
    rescueV1Answer shortStandIns Config.defaults (ascii "1,2,3,4") = .error .internal ∧
    rescueV1Answer standIns { maxInputBytes := some 6 } (ascii "1,2,3,4") = .error .tooLong := by decide
/-- The buffer of S1: bytes 0, 16, 32 and 48 are 1, 2, 3 and 4, the others zero. -/
theorem test_hash_buffer :
    hashBuffer [1, 2, 3, 4] = [1] ++ zeros 15 ++ [2] ++ zeros 15 ++ [3] ++ zeros 15 ++ [4] ++ zeros 15 := by decide

/-! ## RESCUE_V2 -/

/-- V70, V71, V76, V79. -/
theorem test_rescue_v2_integers :
    ["1,2,3,4,5,6,7,8", "18446744073709551615,1000003,1000002,0,5,0,1,7", "0,0,0,0,0,0,0,18446744073709551615",
      "8,7,6,5,4,3,2,1"].map (fun t => rescueV2Answer standIns Config.defaults (ascii t))
      = [.ok (.integers [6, 8, 10, 12]), .ok (.integers [350691, 0, 0, 7]), .ok (.integers [0, 0, 0, 350686]),
        .ok (.integers [12, 10, 8, 6])] := by decide
/-- V72, V73, V74, V75, V77, V78. -/
theorem test_rescue_v2_faults :
    ["1,2,3,4", "", "1,2,3,4,5,6,7,8,9", "0,0,0,0,0,0,0,18446744073709551616", "1,2,3,4,5,6,7,-8"].map
        (fun t => rescueV2Answer standIns Config.defaults (ascii t))
      = [.error .arity, .error .arity, .error .arity, .error .parse, .error .parse] ∧
    rescueV2Answer shortStandIns Config.defaults (ascii "1,2,3,4,5,6,7,8") = .error .internal := by decide

/-! ## RESCUE_V3 -/

/-- V80, V81, V83, V85, V88, V91, V92; V94 with the rule "always true". -/
theorem test_rescue_v3_texts :
    [ascii "abc", [], [0xC3, 0xA9], [0xE2, 0x82, 0xAC], [0xF4, 0x8F, 0xBF, 0xBF], ascii "1,2,3,4",
      List.replicate 33 0x41].map (rescueV3Answer standIns Config.defaults)
      = [.ok (.text ([0x61, 0x62, 0x63] ++ zeros 29)), .ok (.text (zeros 32)), .ok (.text ([0xC3, 0xA9] ++ zeros 30)),
        .ok (.text ([0xE2, 0x82, 0xAC] ++ zeros 29)), .ok (.text ([0xF4, 0x8F, 0xBF, 0xBF] ++ zeros 28)),
        .ok (.text ([0x31, 0x2C, 0x32, 0x2C, 0x33, 0x2C, 0x34] ++ zeros 25)),
        .ok (.text ([0] ++ List.replicate 31 0x41))] ∧
    rescueV3Answer standIns { textRule := .always } [0xFF] = .ok (.text ([0xFF] ++ zeros 31)) := by decide
/-- V82, V84, V86, V87, V89, V90; V93 with the short stand-in. -/
theorem test_rescue_v3_faults :
    [[0xFF], [0xC3], [0xED, 0xA0, 0x80], [0xC0, 0x80], [0xF4, 0x90, 0x80, 0x80], zeros 31 ++ [0xC3]].map
        (rescueV3Answer standIns Config.defaults)
      = [.error .text, .error .text, .error .text, .error .text, .error .text, .error .text] ∧
    rescueV3Answer shortStandIns Config.defaults (ascii "abc") = .error .internal := by decide

/-! ## INIT_HOOK, illegal commands, fault entry, the halt gate, reset -/

/-- V100 and V101. -/
theorem test_init_hook :
    shown (exec .initHook State.reset) = some (true, false, [.ok .absent], 0) ∧
    shown (exec .initHook (st Config.defaults true false [])) = some (true, false, [.ok .absent], 0) := by decide
/-- V108: INIT_HOOK while HALTED = 1. -/
theorem test_init_hook_halted :
    shown (exec .initHook (st abortParams false true [])) = some (false, true, [.fault .halted], 0) := by decide
/-- V102. -/
theorem test_illegal_cmd6 :
    shown (exec (.illegalCmd6 (.data [1])) State.reset) = some (false, false, [.fault .illegalCmd], 0) := by decide
/-- V103, with the handler installed (P4 step 7). -/
theorem test_illegal_cmd7 :
    shown (exec (.illegalCmd7 .absent) (st Config.defaults true false []))
      = some (true, false, [.fault .illegalCmd], 1) := by decide
/-- V104 and V105: the diagnostic record is emitted exactly when HOOK = 1. -/
theorem test_irdec_fault_entry :
    shown (exec (.irdec 0x01000000) State.reset) = some (false, false, [.fault .irReserved], 0) ∧
    shown (exec (.irdec 0x01000000) (st Config.defaults true false [])) = some (true, false, [.fault .irReserved], 1) := by
  decide
/-- V106: a fault under ABORT_ON_DEFECT halts the block. -/
theorem test_rescue_v1_abort :
    shown (step (st abortParams false false [.request ⟨0b010, .data []⟩])) = some (false, true, [.fault .arity], 0) := by
  decide
/-- V107: the halt gate; and no record of ERR_HALTED with HOOK = 1 (R171). -/
theorem test_irdec_halted :
    shown (exec (.irdec 0) (st abortParams true true [])) = some (true, true, [.fault .halted], 0) := by decide
/-- V109: reset. -/
theorem test_reset_event : shown (step (st abortParams true true [.reset])) = some (false, false, [], 0) := by decide
/-- R190: reset in the middle of INIT_HOOK leaves HOOK = 0 and gives no response. -/
theorem test_reset_abandons :
    (match step (st Config.defaults false false [.abandoned ⟨0b101, .absent⟩]) with
      | .next t => (t.hook, t.halted, t.responses, t.port)
      | .fault _ => (true, true, [], [])
      | .refused _ => (true, true, [], [])) = (false, false, [], []) := by rfl
/-- The stops of the machine, neither of them an instruction's: an excluded request (R200) and a broken layout (R197). -/
theorem test_machine_stops :
    step (st Config.defaults false false [.request ⟨0b101, .data []⟩]) = .fault (.excludedRequest .wrongPayload) ∧
    step (st { irWidth := 23 } false false []) = .refused .layoutDefect := ⟨rfl, rfl⟩

/-! ## Witnesses: a state and operands that meet the hypotheses of each statement -/

theorem test_witness_StepRunsDecodedRequest : layoutOk (st {} true false [.request ⟨5, .absent⟩, .reset]).params = true ∧
    (st {} true false [.request ⟨5, .absent⟩, .reset]).port = .request ⟨5, .absent⟩ :: [.reset] ∧
    decode Config.defaults ⟨5, .absent⟩ = .ok .initHook := by decide
theorem test_witness_ResetEventClearsCsrAndAbandonsOperation :
    layoutOk (st {} true true [.reset]).params = true ∧ (st {} true true [.reset]).port = .reset :: [] ∧
    (⟨0, .word none 0x01000000⟩ : Request).fits (st {} true false []).params = true ∧
    (st {} true false [.abandoned ⟨0, .word none 0x01000000⟩]).port = .abandoned ⟨0, .word none 0x01000000⟩ :: [] := by
  decide
theorem test_witness_StepStopsOnlyOnExcludedInput : ∃ t, step (st {} false false [.request ⟨7, .absent⟩]) = .next t :=
  ⟨_, rfl⟩
theorem test_witness_StepStopsOnlyOnExcludedInput_excluded :
    step (st {} false false [.abandoned ⟨0, .word none 0x100000000⟩]) = .fault (.excludedRequest .wordTooWide) := rfl
theorem test_witness_DecodeEncodeRoundTrip :
    (Instr.irdec 0xFFFFFFFF).wf {} = true ∧ (Instr.cf5 0x008800A0).wf {} = true ∧ (Instr.ld31 0x1F00).wf {} = true ∧
    (Instr.hd3 0x6000).wf {} = true ∧ (Instr.ir 0x00FFFFFF).wf { irWidth := 24 } = true := by decide
theorem test_witness_DecoderAcceptsExactlyTheRequestFormat :
    decode {} ⟨0, .word (some .hdOp) 0xFFFFFFFF⟩ = .ok (.irdec 0xFFFFFFFF) ∧
    decode {} ⟨0, .word (some .hdOp) 0x00FFFFFF⟩ = .ok (.hd3 0x00FFFFFF) := by decide
theorem test_witness_LayoutAssertionsHold : layoutOk { irWidth := 24 } = true ∧ layoutOk { irWidth := 64, ctxDepthRange := ⟨40, 50⟩ } = true := by
  decide
theorem test_witness_ReservedBitsAreTheBitsOfNoField :
    layoutOk {} = true ∧ (reservedMask {}).testBit 24 = true ∧ (reservedMask {}).testBit 23 = false ∧
    (reservedMask {}).testBit 32 = false := by decide
theorem test_witness_IrdecDecodesOrReportsFirstFault : State.reset.halted = false ∧ DefaultLayout State.reset.params ∧
    (0xFFFFFFFF : Nat) < 2 ^ 32 ∧ (0 : Nat) < 2 ^ 32 := by decide
theorem test_witness_IrdecReservedTestAtEveryWidth :
    (st { irWidth := 64 } false false []).halted = false ∧ 24 ≤ (st { irWidth := 64 } false false []).params.irWidth ∧
    2 ^ 63 < 2 ^ (st { irWidth := 64 } false false []).params.irWidth ∧ (2 ^ 63) / 2 ^ 24 ≠ 0 := by decide
theorem test_witness_IrdecReservedTestAtEveryWidth_boundary :
    irdecAnswer { irWidth := 25 } (2 ^ 24) = .error .irReserved ∧
    irdecAnswer { irWidth := 24 } 0x00887FFF = .ok (.fields ⟨1, 15, 7, 31, 3, 16, 8⟩) := by decide
theorem test_witness_DepthBoundsAreInclusive : DefaultLayout Config.defaults ∧
    [(16, 8), (17, 8), (16, 9), (31, 15)].map (fun q => irdecAnswer Config.defaults (32768 * q.1 + 1048576 * q.2))
      = [.ok (.fields ⟨0, 0, 0, 0, 0, 16, 8⟩), .error .irCtxDepth, .error .irLoopDepth, .error .irCtxDepth] := by decide
theorem test_witness_SpongeSelectorBoundedOnlyBySetting : DefaultLayout { spongeSelMax := 3 } ∧
    irdecAnswer { spongeSelMax := 3 } 0x00000006 = .ok (.fields ⟨0, 3, 0, 0, 0, 0, 0⟩) ∧
    irdecAnswer { spongeSelMax := 3 } 0x00000008 = .error .irSpongeSel ∧ Config.defaults.spongeSelMax = 15 := by decide
theorem test_witness_IllegalIrWordsAndLegalWordCount :
    irdecAnswer Config.defaults 0x01000000 = .error .irReserved ∧ irdecAnswer Config.defaults 0x00088000 = .error .irCtxDepth ∧
    irdecAnswer Config.defaults 0x00900000 = .error .irLoopDepth ∧
    irencAnswer Config.defaults ⟨1, 15, 7, 31, 3, 16, 8⟩ = .ok (.word 0x00887FFF) := by decide
theorem test_witness_IrencAssemblesOrReportsFirstFault :
    State.reset.halted = false ∧ DefaultLayout State.reset.params := by decide
theorem test_witness_IrCodecRoundTrips : layoutOk { ctxDepthRange := ⟨19, 24⟩, loopDepthRange := ⟨15, 19⟩ } = true ∧
    IrFields.fits { ctxDepthRange := ⟨19, 24⟩, loopDepthRange := ⟨15, 19⟩ } ⟨0, 0, 0, 0, 0, 16, 8⟩ = true ∧
    irencAnswer { ctxDepthRange := ⟨19, 24⟩, loopDepthRange := ⟨15, 19⟩ } ⟨0, 0, 0, 0, 0, 16, 8⟩ = .ok (.word 0x00840000) ∧
    irdecAnswer { ctxDepthRange := ⟨19, 24⟩, loopDepthRange := ⟨15, 19⟩ } 0x00840000 = .ok (.fields ⟨0, 0, 0, 0, 0, 16, 8⟩) ∧
    IrFields.fits Config.defaults ⟨0, 0, 0, 0, 0, 17, 0⟩ = true ∧
    irencAnswer Config.defaults ⟨0, 0, 0, 0, 0, 17, 0⟩ = .error .irCtxDepth ∧
    extractFields Config.defaults 0x00088000 = ⟨0, 0, 0, 0, 0, 17, 0⟩ ∧ reservedBits Config.defaults 0x00088000 = 0 := by decide
theorem test_witness_ControlFlowRowsDecodeWithoutEffect : State.reset.halted = false ∧ DefaultLayout State.reset.params ∧
    (List.range 8).all (fun k => ((cfRows (0x00887F1F + 32 * k))[k]?).any (fun i => i.wf State.reset.params)) = true ∧
    0x00887F1F / 2 % 16 ≤ State.reset.params.spongeSelMax.val ∧ 0x00887F1F / 32768 % 32 ≤ 16 ∧
    0x00887F1F / 1048576 % 16 ≤ 8 := by decide
theorem test_witness_StackLoadRowsDecodeWithoutEffect : State.reset.halted = false ∧ DefaultLayout State.reset.params ∧
    (List.range 32).all (fun k => ((ldRows (0x008860FF + 256 * k))[k]?).any (fun i => i.wf State.reset.params)) = true ∧
    0x008860FF / 2 % 16 ≤ State.reset.params.spongeSelMax.val ∧ 0x008860FF / 32768 % 32 ≤ 16 ∧
    0x008860FF / 1048576 % 16 ≤ 8 := by decide
theorem test_witness_HashDomainRowsDecodeWithoutEffect : State.reset.halted = false ∧ DefaultLayout State.reset.params ∧
    (List.range 4).all (fun k => ((hdRows (0x00881FFF + 8192 * k))[k]?).any (fun i => i.wf State.reset.params)) = true ∧
    0x00881FFF / 2 % 16 ≤ State.reset.params.spongeSelMax.val ∧ 0x00881FFF / 32768 % 32 ≤ 16 ∧
    0x00881FFF / 1048576 % 16 ≤ 8 := by decide
theorem test_witness_WholeWordRowDecodes : State.reset.halted = false ∧ DefaultLayout State.reset.params ∧
    (Instr.ir 0x00887FFF).wf State.reset.params = true ∧ 0x00887FFF / 2 % 16 ≤ State.reset.params.spongeSelMax.val ∧
    0x00887FFF / 32768 % 32 ≤ 16 ∧ 0x00887FFF / 1048576 % 16 ≤ 8 := by decide
theorem test_witness_EveryRowActsAsIrdec : irWordOf (.cf5 0x00FFFFBF) = some 0x00FFFFBF ∧
    (Instr.cf5 0x00FFFFBF).wf Config.defaults = true ∧ irWordOf (.ld31 0x1F00) = some 0x1F00 ∧
    (Instr.ld31 0x1F00).wf Config.defaults = true := by decide
theorem test_witness_TokensSplitTheTextAtCommas : ascii ",1,," ≠ [] ∧ tokens (ascii ",1,,") = [[], ascii "1", [], []] := by
  decide
theorem test_witness_TokenValueIsTheExactDecimalSum : parseToken 8 (ascii "255") = .ok 255#8 ∧
    parseToken 8 (ascii "256") = .error .parse ∧ parseToken 8 (ascii "") = .error .parse := by decide
theorem test_witness_FixedWidthAccumulationFaultsExactlyOnOverflow : 4 ≤ 64 ∧
    tokenWellFormed (ascii "18446744073709551615") = true ∧
    accumulateToken 64 0 (ascii "18446744073709551615") = some (2 ^ 64 - 1) ∧
    accumulateToken 64 0 (ascii "18446744073709551616") = none := by decide
theorem test_witness_HashBufferIsLittleEndianPerElement : ([258, 0, 0, 2 ^ 127] : List U128).length = 4 ∧
    (hashBuffer [258, 0, 0, BitVec.ofNat 128 (2 ^ 127)]).getD 0 0 = 2 ∧
    (hashBuffer [258, 0, 0, BitVec.ofNat 128 (2 ^ 127)]).getD 63 0 = 0x80 := by decide
theorem test_witness_Utf8IsConcatenationOfTheNineShapes : textValid .utf8 ([0xF0, 0x90, 0x80, 0x80] ++ [0xDF, 0xBF]) = true ∧
    textValid .utf8 [0xF0, 0x8F, 0x80, 0x80] = false ∧ textValid .utf8 [] = true := by decide
theorem test_witness_RescueV1HashesFourIntegers : State.reset.halted = false := rfl
theorem test_witness_RescueV2HashesEightIntegers : State.reset.halted = false := rfl
theorem test_witness_RescueV3HashesTheBytesThemselves : State.reset.halted = false := rfl
theorem test_witness_LengthGateComesFirst :
    (st { maxInputBytes := some 6 } false false []).halted = false ∧
    (st { maxInputBytes := some 6 } false false []).params.maxInputBytes = some 6 ∧ 6 < (ascii "1,2,3,4").length := by decide
theorem test_witness_LengthGateComesFirst_within : Config.defaults.maxInputBytes = none ∧
    ({ maxInputBytes := some 7 } : Params).maxInputBytes = some 7 ∧ (ascii "1,2,3,4").length ≤ 7 := by decide
theorem test_witness_ArityFailsBeforeTheCollaboratorIsCalled : tooLong Config.defaults (ascii "1,x,3") = false ∧
    (tokens (ascii "1,x,3")).length ≠ 4 ∧ (tokens (ascii "1,x,3")).length ≠ 8 ∧
    parseText Config.defaults 4 128 (ascii "1,x,3,4") = .error .parse ∧
    parseText Config.defaults 8 64 (ascii "") = .error .arity := by decide
theorem test_witness_DigestSizeIsChecked : (∃ v, parseText Config.defaults 4 128 (ascii "1,2,3,4") = .ok v ∧
      (shortStandIns.hBytes (hashBuffer v)).length ≠ 32) ∧
    (∃ v, parseText Config.defaults 8 64 (ascii "1,2,3,4,5,6,7,8") = .ok v ∧
      (shortStandIns.hSponge (v.map shortStandIns.feFromU64)).length ≠ 4) ∧
    tooLong Config.defaults [] = false ∧ (shortStandIns.hBytes []).length ≠ 32 :=
  ⟨⟨[1, 2, 3, 4], by decide⟩, ⟨[1, 2, 3, 4, 5, 6, 7, 8], by decide⟩, by decide⟩
theorem test_witness_DigestSizeIsChecked_answers :
    (∃ a, rescueV1Answer standIns Config.defaults (ascii "1,2,3,4") = .ok a) ∧
    (∃ a, rescueV2Answer standIns Config.defaults (ascii "1,2,3,4,5,6,7,8") = .ok a) ∧
    (∃ a, rescueV3Answer standIns Config.defaults (ascii "abc") = .ok a) := ⟨⟨_, rfl⟩, ⟨_, rfl⟩, ⟨_, rfl⟩⟩
theorem test_witness_EqualTokenValuesGiveEqualAnswers : Config.defaults.maxInputBytes = none ∧
    (∀ t ∈ tokens (ascii "01,2,3,4"), tokenWellFormed t = true) ∧ (∀ t ∈ tokens (ascii "1,2,3,0004"), tokenWellFormed t = true) ∧
    (tokens (ascii "01,2,3,4")).map tokenValue = (tokens (ascii "1,2,3,0004")).map tokenValue := by decide
theorem test_witness_InitHookInstallsTheHandler :
    (st {} true false []).halted = false ∧ (st abortParams false true []).halted = true := by decide
theorem test_witness_IllegalCommandsFault : (st abortParams true false []).halted = false := rfl
theorem test_witness_HaltGateStopsEveryOperation : (st abortParams true true []).halted = true := rfl
theorem test_witness_StatusCodesAndWhoRaisesThem : ∃ t, exec (.irdec 0x01000000) State.reset = .next t ∧
    t.responses = State.reset.responses ++ [.fault .irReserved] := ⟨_, rfl, rfl⟩
theorem test_witness_UnreachableStatusesAtTheDefaults :
    State.reset.params = Config.defaults ∧ State.reset.halted = false := by decide
theorem test_witness_DiagnosticRecordExactlyOnFaultsWithHook : ∃ t, exec (.illegalCmd7 .absent) (st {} true false []) = .next t ∧
    t.responses = (st {} true false []).responses ++ [.fault .illegalCmd] ∧ (st {} true false []).hook = true :=
  ⟨_, rfl, rfl, rfl⟩
theorem test_witness_DiagnosticRecordExactlyOnFaultsWithHook_none : ∃ t, exec (.irdec 0) (st {} true false []) = .next t ∧
    t.responses = (st {} true false []).responses ++ [decoded 0 0 0 0 0 0 0] := ⟨_, rfl, rfl⟩
theorem test_witness_ExecFrame : ∃ t, exec .initHook State.reset = .next t ∧ t.hook = true := ⟨_, rfl, rfl⟩
theorem test_witness_ExecFrame_fault : ∃ t, exec (.illegalCmd6 .absent) (st abortParams true false []) = .next t ∧
    t.halted = true ∧ t.hook = true := ⟨_, rfl, rfl, rfl⟩
theorem test_witness_ResponseIsAFunctionOfRequestBitsAndConfiguration :
    (st {} true false []).halted = State.reset.halted ∧ (st {} true false []).params = State.reset.params ∧
    (∃ t, exec (.irdec 5) (st {} true false []) = .next t) ∧ (∃ t, exec (.irdec 5) State.reset = .next t) :=
  ⟨rfl, rfl, ⟨_, rfl⟩, ⟨_, rfl⟩⟩
theorem test_witness_OnlyInitHookAndResetChangeHook : (∃ t, step (st {} false false [.request ⟨5, .absent⟩]) = .next t ∧
      t.hook = true) ∧ (∃ t, step (st {} true false [.reset]) = .next t ∧ t.hook = false) ∧
    (∃ t, step (st {} true false [.abandoned ⟨5, .absent⟩]) = .next t ∧ t.hook = false) ∧
    (st {} true false []).halted = false := ⟨⟨_, rfl, rfl⟩, ⟨_, rfl, rfl⟩, ⟨_, rfl, rfl⟩, rfl⟩
theorem test_witness_HaltedIsStickyUntilReset : HaltedOnlyUnderAbort (st abortParams false true [.reset]) ∧
    (∃ t, step (st abortParams false true [.reset]) = .next t ∧ t.halted = false) ∧
    (∃ t, exec (.rescueV1 []) (st abortParams false false []) = .next t ∧ t.responses = [] ++ [.fault .arity]) :=
  ⟨by decide, ⟨_, rfl, rfl⟩, ⟨_, rfl, rfl⟩⟩
theorem test_witness_CsrHoldsHookAndHalted : csr (st {} true false []) = 0b01#2 ∧ csr (st {} false true []) = 0b10#2 ∧
    State.reset.halted = false ∧ FaultCode.arity ≠ .halted ∧ abortParams.abortOnDefect = true := by decide
theorem test_witness_ResponsesStaySound : ResponsesSound (st {} false false [.request ⟨0, .word none 0x00887FFF⟩]) ∧
    ∃ t, step (st {} false false [.request ⟨0, .word none 0x00887FFF⟩]) = .next t ∧
      t.responses = [decoded 1 15 7 31 3 16 8] := ⟨fun _ h => absurd h List.not_mem_nil, ⟨_, rfl, rfl⟩⟩
theorem test_witness_DiagnosticsNeverInfluenceARun :
    SameButForDiagnostics (st {} true false [.request ⟨6, .absent⟩]) (st {} false false [.request ⟨6, .absent⟩]) := by decide
theorem test_witness_FaultLeavesNoTrace : (st {} true false [.request ⟨6, .absent⟩]).params.abortOnDefect = false ∧
    (st {} true false [.request ⟨6, .absent⟩]).port = .request ⟨6, .absent⟩ :: [] ∧
    ∃ t, step (st {} true false [.request ⟨6, .absent⟩]) = .next t ∧ t.responses = [] ++ [.fault .illegalCmd] :=
  ⟨rfl, rfl, ⟨_, rfl, rfl⟩⟩
theorem test_witness_FaultLeavesNoTrace_abort : (st abortParams true false [.request ⟨6, .absent⟩]).params.abortOnDefect = true ∧
    (st abortParams true false [.request ⟨6, .absent⟩]).port = .request ⟨6, .absent⟩ :: [] ∧
    ∃ t, step (st abortParams true false [.request ⟨6, .absent⟩]) = .next t ∧ t.responses = [] ++ [.fault .illegalCmd] ∧
      t.halted = true := ⟨rfl, rfl, ⟨_, rfl, rfl, rfl⟩⟩
theorem test_witness_EqualRequestsGetEqualResponses :
    (st {} true false [.request ⟨2, .data [0x31]⟩, .request ⟨2, .data [0x31]⟩]).params.abortOnDefect = false ∧
    layoutOk (st {} true false [.request ⟨2, .data [0x31]⟩, .request ⟨2, .data [0x31]⟩]).params = true ∧
    (⟨2, .data [0x31]⟩ : Request).fits (st {} true false []).params = true ∧
    (st {} true false [.request ⟨2, .data [0x31]⟩, .request ⟨2, .data [0x31]⟩]).port
      = .request ⟨2, .data [0x31]⟩ :: .request ⟨2, .data [0x31]⟩ :: [] := by decide
theorem test_witness_EqualRequestsGetEqualResponses_between :
    (⟨5, .absent⟩ : Request).fits (st {} true false []).params = true ∧
    (st {} true false [.request ⟨2, .data []⟩, .request ⟨5, .absent⟩, .request ⟨2, .data []⟩]).port
      = .request ⟨2, .data []⟩ :: .request ⟨5, .absent⟩ :: .request ⟨2, .data []⟩ :: [] := by decide
theorem test_witness_RunAnswersEveryRequestInOrder :
    layoutOk (st {} false false [.request ⟨5, .absent⟩, .request ⟨0, .word none 0x0041A2B3⟩]).params = true ∧
    (∀ r ∈ [(⟨5, .absent⟩ : Request), ⟨0, .word none 0x0041A2B3⟩], r.fits Config.defaults = true) ∧
    (st {} false false [.request ⟨5, .absent⟩, .request ⟨0, .word none 0x0041A2B3⟩]).port
      = [(⟨5, .absent⟩ : Request), ⟨0, .word none 0x0041A2B3⟩].map HostEvent.request := by decide

theorem test_witness_DepthFieldsFollowTheirRanges :
    layoutOk { ctxDepthRange := ⟨15, 22⟩, loopDepthRange := ⟨22, 32⟩ } = true ∧ 16 * 2 ^ 15 + 8 * 2 ^ 22 < 2 ^ 32 ∧
    irdecAnswer { ctxDepthRange := ⟨15, 22⟩, loopDepthRange := ⟨22, 32⟩ } (16 * 2 ^ 15 + 8 * 2 ^ 22)
      = .ok (.fields ⟨0, 0, 0, 0, 0, 16, 8⟩) := by decide

end Sys2Proof.Tests
end

/-! # The rows of the IR32 format as IRDEC, and the word as the sum of its fields -/

namespace Sys2Proof.Machine

/-! ## What the range tests and IRDEC accept (R101, R103) -/

/-- The range tests give the fields back unchanged, exactly when the selector and the depths are within their bounds; the
opcode tests cannot fail (R104). -/
theorem checkFields_eq_ok_iff {p : Params} {f g : IrFields} :
    checkFields p f = .ok g ↔ LegalFields p f ∧ f = g := by
  have hop : ¬ (f.cf.toNat ≥ Config.numCfOps ∨ f.ld.toNat ≥ Config.numLdOps ∨ f.hd.toNat ≥ Config.numHdOps) := by
    simp only [not_or, not_le, ge_iff_le]
    exact ⟨f.cf.isLt, f.ld.isLt, f.hd.isLt⟩
  rw [checkFields, if_neg hop]
  split_ifs with hs hc hl
  · simp [LegalFields, hs]
  · simp [LegalFields, show 16 < f.ctx from hc]
  · simp [LegalFields, show 8 < f.loop from hl]
  · simp [LegalFields, not_lt.mp hs, show f.ctx ≤ 16 from not_lt.mp hc, show f.loop ≤ 8 from not_lt.mp hl]

/-- IRDEC accepts a word exactly when its reserved bits are zero and its fields pass the range tests; it answers the
fields extracted from the word. -/
theorem irdecAnswer_eq_ok_iff {p : Params} {w : Nat} {f : IrFields} : irdecAnswer p w = .ok (.fields f) ↔
    reservedBits p w = 0 ∧ LegalFields p f ∧ extractFields p w = f := by
  unfold irdecAnswer
  split_ifs with hres
  · simp [hres]
  · cases hcheck : checkFields p (extractFields p w) with
    | error code =>
      have hrejected : ¬ LegalFields p (extractFields p w) := fun hlegal => by
        simp [checkFields_eq_ok_iff.mpr ⟨hlegal, rfl⟩] at hcheck
      simp only [reduceCtorEq, false_iff, not_and]
      rintro - hlegal rfl
      exact hrejected hlegal
    | ok g =>
      obtain ⟨hlegal, rfl⟩ := checkFields_eq_ok_iff.mp hcheck
      simp only [Except.ok.injEq, OkPayload.fields.injEq]
      exact ⟨fun hf => ⟨not_not.mp hres, hf ▸ hlegal, hf⟩, fun hf => hf.2.2⟩

/-! ## A row's answer is IRDEC's (R75) -/

/-- On a word that matches a row, putting the row's number into its field changes nothing (R75). -/
theorem withField_of_rowMatches {r : BitRange} {k w : Nat} (h : rowMatches r.lo r.width k w = true) :
    withField r k w = w := by
  have hfield : irField w r = k := by
    simp only [rowMatches, Bool.and_eq_true, beq_iff_eq] at h
    exact h.2
  rw [← hfield, withField_irField]

/-- IRDEC of a row's operand form is IRDEC of the word, when the word is well formed for the row. -/
theorem irdecAnswer_withField {p : Params} {r : BitRange} {k w : Nat}
    (h : (decide (w < 2 ^ p.irWidth) && rowMatches r.lo r.width k w) = true) :
    irdecAnswer p (withField r k w) = irdecAnswer p w := by
  rw [withField_of_rowMatches (Bool.and_eq_true_iff.mp h).2]

/-- A well-formed row of the IR32 format answers what IRDEC answers on the word it carries. -/
theorem answerOf_row {p : Params} {i : Instr} {w : Nat} (hword : irWordOf i = some w) (hwf : i.wf p = true) :
    answerOf i p = irdecAnswer p w := by
  cases i with
  | irdec | irenc | rescueV1 | rescueV2 | rescueV3 | initHook | illegalCmd6 | illegalCmd7 => cases hword
  | ir => cases hword; rfl
  | cf0 | cf1 | cf2 | cf3 | cf4 | cf5 | cf6 | cf7 =>
    cases hword
    exact irdecAnswer_withField (r := Config.cfOpBitsRange) hwf
  | ld0 | ld1 | ld2 | ld3 | ld4 | ld5 | ld6 | ld7 | ld8 | ld9 | ld10 | ld11 | ld12 | ld13 | ld14 | ld15
  | ld16 | ld17 | ld18 | ld19 | ld20 | ld21 | ld22 | ld23 | ld24 | ld25 | ld26 | ld27 | ld28 | ld29 | ld30 | ld31 =>
    cases hword
    exact irdecAnswer_withField (r := Config.ldOpBitsRange) hwf
  | hd0 | hd1 | hd2 | hd3 =>
    cases hword
    exact irdecAnswer_withField (r := Config.hdOpBitsRange) hwf

/-- Settles O22: a row and IRDEC are the same shared operation, on the same answer. -/
theorem everyRowActsAsIrdec : Obligations.EveryRowActsAsIrdec := by
  intro i w s hword hwf
  have hcmd : i ≠ .initHook := by
    rintro rfl
    cases hword
  rw [exec_eq_perform i s hcmd, answerOf_row hword hwf, exec_eq_perform _ s (by simp), answerOf]

/-! ## The word as the sum of its fields (R73, R74) -/

/-- The assembled word with the source's five first bits as numerals. -/
theorem assembleFields_eq_sum (p : Params) (f : IrFields) : assembleFields p f =
    f.n.toNat + 2 * f.s.toNat + 32 * f.cf.toNat + 256 * f.ld.toNat + 8192 * f.hd.toNat
      + 2 ^ p.ctxDepthRange.lo * f.ctx + 2 ^ p.loopDepthRange.lo * f.loop := by
  simp only [assembleFields, Config.opCounterRange, Config.spongeRange, Config.cfOpBitsRange, Config.ldOpBitsRange,
    Config.hdOpBitsRange]
  ring

/-- Settles O54: an accepted word has no reserved bit, so it is the assembly of the fields extracted from it. -/
theorem depthFieldsFollowTheirRanges : Obligations.DepthFieldsFollowTheirRanges := by
  intro p w f hlayout hw hanswer
  obtain ⟨hres, -, rfl⟩ := irdecAnswer_eq_ok_iff.mp hanswer
  have hword : assembleFields p (extractFields p w) = w := (reservedBits_eq_zero_iff hlayout hw).mp hres
  exact ⟨rfl, rfl, by rw [← assembleFields_eq_sum, hword]⟩

end Sys2Proof.Machine

/-! # The state: what an instruction does to each field, which runs agree, and the two bits of CSR -/

namespace Sys2Proof.Machine

/-! ## Which faults an operation can answer (R161) -/

/-- The range tests report one of their four faults (R101, R106). -/
theorem checkFields_error {p : Params} {f : IrFields} {code : FaultCode} (h : checkFields p f = .error code) :
    code ∈ [FaultCode.irOpcodeRange, .irSpongeSel, .irCtxDepth, .irLoopDepth] := by
  unfold checkFields at h
  split_ifs at h <;> cases h <;> decide

/-- IRDEC reports the reserved test or a range test (R101). -/
theorem irdecAnswer_error {p : Params} {w : Nat} {code : FaultCode} (h : irdecAnswer p w = .error code) :
    code ∈ [FaultCode.irReserved, .irOpcodeRange, .irSpongeSel, .irCtxDepth, .irLoopDepth] := by
  unfold irdecAnswer at h
  split_ifs at h
  · cases h
    decide
  · split at h
    · next hcheck =>
      cases h
      exact List.mem_cons_of_mem _ (checkFields_error hcheck)
    · cases h

/-- IRENC reports a range test (R106). -/
theorem irencAnswer_error {p : Params} {f : IrFields} {code : FaultCode} (h : irencAnswer p f = .error code) :
    code ∈ [FaultCode.irOpcodeRange, .irSpongeSel, .irCtxDepth, .irLoopDepth] := by
  unfold irencAnswer at h
  split at h
  · next hcheck =>
    cases h
    exact checkFields_error hcheck
  · cases h

/-- The text stages report the length, the arity or a token (R120). -/
theorem parseText_error {p : Params} {arity W : Nat} {T : List Byte} {code : FaultCode}
    (h : parseText p arity W T = .error code) : code ∈ [FaultCode.tooLong, .arity, .parse] := by
  rw [parseText_eq] at h
  split_ifs at h <;> cases h <;> decide

/-- RESCUE_V1 reports a text stage or a digest of the wrong size (R124). -/
theorem rescueV1Answer_error {FE : Type} {c : Collaborators FE} {p : Params} {T : List Byte} {code : FaultCode}
    (h : rescueV1Answer c p T = .error code) : code ∈ [FaultCode.internal, .tooLong, .arity, .parse] := by
  unfold rescueV1Answer at h
  split at h
  · next hparse =>
    cases h
    exact List.mem_cons_of_mem _ (parseText_error hparse)
  · dsimp only at h
    split_ifs at h
    cases h
    decide

/-- RESCUE_V2 reports a text stage or a digest of the wrong size (R126). -/
theorem rescueV2Answer_error {FE : Type} {c : Collaborators FE} {p : Params} {T : List Byte} {code : FaultCode}
    (h : rescueV2Answer c p T = .error code) : code ∈ [FaultCode.internal, .tooLong, .arity, .parse] := by
  unfold rescueV2Answer at h
  split at h
  · next hparse =>
    cases h
    exact List.mem_cons_of_mem _ (parseText_error hparse)
  · dsimp only at h
    split_ifs at h
    cases h
    decide

/-- RESCUE_V3 reports the length, a digest of the wrong size or a digest that is no text (R127). -/
theorem rescueV3Answer_error {FE : Type} {c : Collaborators FE} {p : Params} {T : List Byte} {code : FaultCode}
    (h : rescueV3Answer c p T = .error code) : code ∈ [FaultCode.tooLong, .internal, .text] := by
  unfold rescueV3Answer at h
  dsimp only at h
  split_ifs at h <;> cases h <;> decide

/-- ERR_HALTED comes from the gate alone: no operation answers it (R161, R180). -/
theorem answerOf_ne_halted (i : Instr) (p : Params) : answerOf i p ≠ .error .halted := by
  intro h
  cases i with
  | irenc f => exact absurd (irencAnswer_error h) (by decide)
  | rescueV1 data => exact absurd (rescueV1Answer_error h) (by decide)
  | rescueV2 data => exact absurd (rescueV2Answer_error h) (by decide)
  | rescueV3 data => exact absurd (rescueV3Answer_error h) (by decide)
  | initHook | illegalCmd6 | illegalCmd7 => cases h
  | _ => exact absurd (irdecAnswer_error h) (by decide)

/-! ## What an instruction does to each field of the state -/

/-- The one response of an instruction, from HALTED and the configuration alone (R58, R180). -/
def responseTo (i : Instr) (halted : Bool) (p : Params) : Response :=
  if halted = true then .fault .halted else responseOf (answerOf i p)

/-- A response that reports a fault (R160). -/
def isFault : Response → Bool
  | .ok _ => false
  | .fault _ => true

theorem isFault_responseTo_iff {i : Instr} {p : Params} :
    isFault (responseTo i false p) = true ↔ ∃ code, code ≠ .halted ∧ answerOf i p = .error code := by
  cases h : answerOf i p with
  | ok payload => simp [responseTo, responseOf, isFault, h]
  | error code =>
    have hcode : code ≠ .halted := fun heq => answerOf_ne_halted i p (heq ▸ h)
    simpa [responseTo, responseOf, isFault, h] using hcode

/-- Every instruction answers a next state, whatever the state (R71, R199). -/
theorem exec_total (i : Instr) (s : State) : ∃ t, exec i s = .next t := ⟨_, exec_eq_gated i s⟩

/-- A halted block answers ERR_HALTED to every instruction and does nothing else (R180). -/
theorem exec_of_halted (i : Instr) {s : State} (h : s.halted = true) : exec i s = .next (raise .halted s) := by
  rw [exec_eq_gated, gated_of_halted _ h]

/-- INIT_HOOK past the gate (R150). -/
theorem exec_initHook_of_running {s : State} (h : s.halted = false) :
    exec .initHook s = .next (respond (.ok .absent) (setHook s)) := by
  rw [exec_initHook, gated_of_running _ h]

/-- Every other instruction past the gate (R160). -/
theorem exec_of_running {i : Instr} {s : State} (hi : i ≠ .initHook) (h : s.halted = false) :
    exec i s = .next (finish (answerOf i s.params) s) := by
  rw [exec_eq_perform i s hi, perform_of_running _ h]

/-- Everything an instruction can do: the halt gate, INIT_HOOK, or an answer with no effect of its own. -/
theorem exec_next_cases {i : Instr} {s t : State} (h : exec i s = .next t) :
    (s.halted = true ∧ t = raise .halted s) ∨
    (s.halted = false ∧ i = .initHook ∧ t = respond (.ok .absent) (setHook s)) ∨
    (s.halted = false ∧ i ≠ .initHook ∧ t = finish (answerOf i s.params) s) := by
  cases hs : s.halted with
  | true =>
    rw [exec_of_halted i hs] at h
    cases h
    exact .inl ⟨rfl, rfl⟩
  | false =>
    by_cases hi : i = .initHook
    · subst hi
      rw [exec_initHook_of_running hs] at h
      cases h
      exact .inr (.inl ⟨rfl, rfl, rfl⟩)
    · rw [exec_of_running hi hs] at h
      cases h
      exact .inr (.inr ⟨rfl, hi, rfl⟩)

section Frame

variable {i : Instr} {s t : State} (h : exec i s = .next t)

include h

theorem exec_params : t.params = s.params := by
  obtain ⟨-, rfl⟩ | ⟨-, -, rfl⟩ | ⟨-, -, rfl⟩ := exec_next_cases h <;> simp

theorem exec_port : t.port = s.port := by
  obtain ⟨-, rfl⟩ | ⟨-, -, rfl⟩ | ⟨-, -, rfl⟩ := exec_next_cases h <;> simp

theorem exec_responses : t.responses = s.responses ++ [responseTo i s.halted s.params] := by
  obtain ⟨hs, rfl⟩ | ⟨hs, rfl, rfl⟩ | ⟨hs, -, rfl⟩ := exec_next_cases h <;>
    simp [responseTo, hs, answerOf, responseOf]

/-- Only INIT_HOOK touches HOOK, and only to set it (R26). -/
theorem exec_hook : t.hook = s.hook ∨ (i = .initHook ∧ t.hook = true) := by
  obtain ⟨-, rfl⟩ | ⟨-, hi, rfl⟩ | ⟨-, -, rfl⟩ := exec_next_cases h
  · exact .inl (raise_hook _ _)
  · exact .inr ⟨hi, rfl⟩
  · exact .inl (finish_hook _ _)

/-- HALTED after an instruction: as it was, or set by a fault under ABORT_ON_DEFECT (R27). -/
theorem exec_halted :
    t.halted = (s.halted || (s.params.abortOnDefect && isFault (responseTo i s.halted s.params))) := by
  obtain ⟨hs, rfl⟩ | ⟨hs, rfl, rfl⟩ | ⟨hs, -, rfl⟩ := exec_next_cases h
  · simp [raise_halted, hs]
  · simp [responseTo, answerOf, responseOf, isFault, hs]
  · rw [hs, finish_halted]
    cases ha : answerOf i s.params with
    | ok payload => simp [responseTo, responseOf, isFault, ha, hs]
    | error code =>
      have hcode : code ≠ .halted := fun heq => answerOf_ne_halted i s.params (heq ▸ ha)
      simp [responseTo, responseOf, isFault, ha, hs, hcode]

/-- Without ABORT_ON_DEFECT no instruction touches HALTED (R27). -/
theorem exec_halted_of_not_abort (ha : s.params.abortOnDefect = false) : t.halted = s.halted := by
  simp [exec_halted h, ha]

/-- An instruction emits at most one record, and only with HOOK = 1 (R178). -/
theorem exec_diags : t.diags = s.diags ∨ (s.hook = true ∧ ∃ d, t.diags = s.diags ++ [d]) := by
  obtain ⟨-, rfl⟩ | ⟨-, -, rfl⟩ | ⟨-, -, rfl⟩ := exec_next_cases h
  · exact .inl (by simp [raise_diags])
  · exact .inl rfl
  · rw [finish_diags]
    cases answerOf i s.params with
    | ok payload => exact .inl rfl
    | error code =>
      dsimp only
      split_ifs with hrecord
      · exact .inr ⟨hrecord.1, _, rfl⟩
      · exact .inl rfl

end Frame

/-! ## What a step does with the oldest event -/

/-- Every request of the format decodes (R70, R200): each row of the format is an arm of the decoder, with the same test. -/
theorem decode_of_fits {p : Params} {r : Request} (h : r.fits p = true) : ∃ i, decode p r = .ok i := by
  unfold Request.fits at h
  unfold decode
  split at h <;> simp_all

theorem step_idle {s : State} (hlayout : layoutOk s.params = true) (hport : s.port = []) : step s = .next s := by
  rw [step, if_pos hlayout, takeEvent, hport]

theorem step_event {s : State} {event : HostEvent} {rest : List HostEvent} (hlayout : layoutOk s.params = true)
    (hport : s.port = event :: rest) : step s = serve event { s with port := rest } := by
  rw [step, if_pos hlayout, takeEvent, hport]

theorem step_of_layoutDefect {s : State} (hlayout : ¬ layoutOk s.params = true) : step s = .refused .layoutDefect := by
  rw [step, if_neg hlayout]

theorem serveRequest_of_decode {s : State} {r : Request} {i : Instr} (h : decode s.params r = .ok i) :
    serveRequest r s = exec i s := by
  rw [serveRequest, h]

theorem serveRequest_of_excluded {s : State} {r : Request} {e : DecodeError} (h : decode s.params r = .error e) :
    serveRequest r s = .fault (.excludedRequest e) := by
  rw [serveRequest, h]

/-- Settles O2: the step takes the request off the port and serves it. -/
theorem stepRunsDecodedRequest : Obligations.StepRunsDecodedRequest := by
  intro s r rest i hlayout hport hdecode
  rw [step_event hlayout hport]
  exact serveRequest_of_decode hdecode

/-! ## Two runs side by side -/

/-- Two outcomes of one kind: next states related by `R`, or the same stop. -/
inductive OutcomesAlike (R : State → State → Prop) :
    Host.Outcome State Fault Refusal → Host.Outcome State Fault Refusal → Prop where
  | next {s t : State} (h : R s t) : OutcomesAlike R (.next s) (.next t)
  | fault (e : Fault) : OutcomesAlike R (.fault e) (.fault e)
  | refused (e : Refusal) : OutcomesAlike R (.refused e) (.refused e)

/-- A relation that every pair of steps keeps is kept by every pair of runs of one length. -/
theorem run_alike {R : State → State → Prop} (hstep : ∀ s t, R s t → OutcomesAlike R (step s) (step t)) (k : Nat)
    {s t : State} (h : R s t) : OutcomesAlike R (Host.Core.run core k s) (Host.Core.run core k t) := by
  induction k generalizing s t with
  | zero => exact .next h
  | succ k ih =>
    have hst := hstep s t h
    generalize hs : step s = a, ht : step t = b at hst
    cases hst with
    | next h' =>
      rw [run_succ_of_next hs, run_succ_of_next ht]
      exact ih h'
    | fault e =>
      rw [run_succ_of_fault hs, run_succ_of_fault ht]
      exact .fault e
    | refused e =>
      rw [run_succ_of_refused hs, run_succ_of_refused ht]
      exact .refused e

/-! ## Diagnostics have no influence (R26, R178) -/

theorem exec_sameButForDiagnostics (i : Instr) {s t : State} (h : SameButForDiagnostics s t) :
    OutcomesAlike SameButForDiagnostics (exec i s) (exec i t) := by
  obtain ⟨hhalted, hparams, hport, hresponses⟩ := h
  obtain ⟨u, hu⟩ := exec_total i s
  obtain ⟨v, hv⟩ := exec_total i t
  rw [hu, hv]
  refine .next ⟨?_, ?_, ?_, ?_⟩
  · rw [exec_halted hu, exec_halted hv, hhalted, hparams]
  · rw [exec_params hu, exec_params hv, hparams]
  · rw [exec_port hu, exec_port hv, hport]
  · rw [exec_responses hu, exec_responses hv, hhalted, hparams, hresponses]

theorem serveRequest_sameButForDiagnostics (r : Request) {s t : State} (h : SameButForDiagnostics s t) :
    OutcomesAlike SameButForDiagnostics (serveRequest r s) (serveRequest r t) := by
  obtain ⟨-, hparams, -, -⟩ := id h
  cases hdecode : decode s.params r with
  | ok i =>
    rw [serveRequest_of_decode hdecode, serveRequest_of_decode (hparams ▸ hdecode)]
    exact exec_sameButForDiagnostics i h
  | error e =>
    rw [serveRequest_of_excluded hdecode, serveRequest_of_excluded (hparams ▸ hdecode)]
    exact .fault _

/-- Reset in the middle of an operation forgets the operation, so the agreement before it is what remains (R190). -/
theorem serveAbandoned_sameButForDiagnostics (r : Request) {s t : State} (h : SameButForDiagnostics s t) :
    OutcomesAlike SameButForDiagnostics (serveAbandoned r s) (serveAbandoned r t) := by
  have hserved := serveRequest_sameButForDiagnostics r h
  obtain ⟨-, hparams, hport, hresponses⟩ := h
  unfold serveAbandoned
  generalize serveRequest r s = a, serveRequest r t = b at hserved
  cases hserved with
  | next _ => exact .next ⟨rfl, hparams, hport, hresponses⟩
  | fault e => exact .fault e
  | refused e => exact .refused e

theorem serve_sameButForDiagnostics (event : HostEvent) {s t : State} (h : SameButForDiagnostics s t) :
    OutcomesAlike SameButForDiagnostics (serve event s) (serve event t) := by
  cases event with
  | request r => exact serveRequest_sameButForDiagnostics r h
  | abandoned r => exact serveAbandoned_sameButForDiagnostics r h
  | reset =>
    obtain ⟨-, hparams, hport, hresponses⟩ := h
    exact .next ⟨rfl, hparams, hport, hresponses⟩

theorem step_sameButForDiagnostics (s t : State) (h : SameButForDiagnostics s t) :
    OutcomesAlike SameButForDiagnostics (step s) (step t) := by
  obtain ⟨hhalted, hparams, hport, hresponses⟩ := id h
  by_cases hlayout : layoutOk s.params = true
  · have hlayout' : layoutOk t.params = true := hparams ▸ hlayout
    cases hs : s.port with
    | nil =>
      rw [step_idle hlayout hs, step_idle hlayout' (hport ▸ hs)]
      exact .next h
    | cons event rest =>
      rw [step_event hlayout hs, step_event hlayout' (hport ▸ hs)]
      exact serve_sameButForDiagnostics event ⟨hhalted, hparams, rfl, hresponses⟩
  · rw [step_of_layoutDefect hlayout, step_of_layoutDefect (hparams ▸ hlayout)]
    exact .refused _

/-- Settles O50: agreement but for the diagnostics is kept by every pair of steps, so by every pair of runs. -/
theorem diagnosticsNeverInfluenceARun : Obligations.DiagnosticsNeverInfluenceARun := by
  intro k s t h
  have hruns := run_alike step_sameButForDiagnostics k h
  generalize Host.Core.run core k s = a, Host.Core.run core k t = b at hruns
  cases hruns with
  | next h' => exact h'
  | fault | refused => rfl

/-! ## The frame of an instruction -/

/-- Settles O42: each clause is the frame of one field. -/
theorem execFrame : Obligations.ExecFrame := by
  intro i s t h
  have hresponses := exec_responses h
  refine ⟨exec_params h, exec_port h, fun hi => ?_, fun _ => ?_, ?_, ⟨_, hresponses⟩, exec_diags h⟩
  · exact (exec_hook h).resolve_right fun hset => hi hset.1
  · exact (exec_hook h).imp_right And.right
  · cases hs : s.halted with
    | true => exact .inl (by simp [exec_halted h, hs])
    | false =>
      have hhalted := exec_halted h
      cases hset : s.params.abortOnDefect && isFault (responseTo i false s.params) with
      | false => exact .inl (by simp [hhalted, hs, hset])
      | true =>
        obtain ⟨habort, hfault⟩ := Bool.and_eq_true_iff.mp hset
        obtain ⟨code, hcode, ha⟩ := isFault_responseTo_iff.mp hfault
        exact .inr ⟨habort, by simp [hhalted, hs, hset], code, hcode,
          by simpa [responseTo, hs, ha, responseOf] using hresponses⟩

/-- Settles O44: response and HALTED are functions of the instruction, HALTED and the configuration. -/
theorem responseIsAFunctionOfRequestBitsAndConfiguration :
    Obligations.ResponseIsAFunctionOfRequestBitsAndConfiguration := by
  intro i s t s' t' hhalted hparams hs ht
  refine ⟨?_, responseTo i s.halted s.params, exec_responses hs, ?_⟩
  · rw [exec_halted hs, exec_halted ht, hhalted, hparams]
  · rw [exec_responses ht, hhalted, hparams]

/-! ## HOOK (R26) -/

/-- HOOK after a step: as it was, set by a request that decodes to INIT_HOOK, or cleared by a reset. -/
theorem step_hook_cases {s t : State} (h : step s = .next t) : t.hook = s.hook ∨
    (t.hook = true ∧ ∃ r rest, s.port = .request r :: rest ∧ decode s.params r = .ok .initHook) ∨
    (t.hook = false ∧ ∃ rest, s.port = .reset :: rest ∨ ∃ r, s.port = .abandoned r :: rest) := by
  obtain ⟨-, ⟨-, rfl⟩ | ⟨rest, hport, rfl⟩ | ⟨r, rest, i, hport, hdecode, hexec⟩ |
    ⟨r, rest, i, u, hport, -, -, rfl⟩⟩ := step_next_cases h
  · exact .inl rfl
  · exact .inr (.inr ⟨rfl, rest, .inl hport⟩)
  · obtain hsame | ⟨rfl, hset⟩ := exec_hook hexec
    · exact .inl hsame
    · exact .inr (.inl ⟨hset, r, rest, hport, hdecode⟩)
  · exact .inr (.inr ⟨rfl, rest, .inr ⟨r, hport⟩⟩)

/-- Settles O45: the three ways of a step with HOOK, INIT_HOOK's own effect, and the response as a function of what is
not HOOK. -/
theorem onlyInitHookAndResetChangeHook : Obligations.OnlyInitHookAndResetChangeHook := by
  refine ⟨fun s t h hs ht => ?_, fun s t h hs ht => ?_, fun s hs => ?_, fun s hs hhook => ?_, fun i s hook ds n => ?_⟩
  · obtain hsame | ⟨-, hinit⟩ | ⟨hclear, -⟩ := step_hook_cases h
    · simp [hs, ht] at hsame
    · exact hinit
    · simp [ht] at hclear
  · obtain hsame | ⟨hset, -⟩ | ⟨-, hreset⟩ := step_hook_cases h
    · simp [hs, ht] at hsame
    · simp [ht] at hset
    · exact hreset
  · exact ⟨_, exec_initHook_of_running hs, rfl⟩
  · rw [exec_initHook_of_running hs, respond, setHook, ← hhook]
  · obtain ⟨t, ht⟩ := exec_total i s
    obtain ⟨t', ht'⟩ := exec_total i { s with hook := hook, diags := ds, draws := n }
    exact ⟨t, t', ht, ht', by rw [exec_responses ht, exec_responses ht'], by rw [exec_halted ht, exec_halted ht']⟩

/-! ## HALTED (R27) -/

/-- HALTED after a step: as it was, cleared by a reset, or set by an instruction under ABORT_ON_DEFECT. -/
theorem step_halted_cases {s t : State} (h : step s = .next t) : t.halted = s.halted ∨
    (t.halted = false ∧ ∃ rest, s.port = .reset :: rest ∨ ∃ r, s.port = .abandoned r :: rest) ∨
    (t.halted = true ∧ s.params.abortOnDefect = true) := by
  obtain ⟨-, ⟨-, rfl⟩ | ⟨rest, hport, rfl⟩ | ⟨r, rest, i, hport, -, hexec⟩ |
    ⟨r, rest, i, u, hport, -, -, rfl⟩⟩ := step_next_cases h
  · exact .inl rfl
  · exact .inr (.inl ⟨rfl, rest, .inl hport⟩)
  · cases habort : s.params.abortOnDefect with
    | false => exact .inl (exec_halted_of_not_abort (s := { s with port := rest }) hexec habort)
    | true =>
      cases ht : t.halted with
      | true => exact .inr (.inr ⟨rfl, rfl⟩)
      | false =>
        have hhalted := exec_halted hexec
        rw [ht, eq_comm, Bool.or_eq_false_iff] at hhalted
        exact .inl hhalted.1.symm
  · exact .inr (.inl ⟨rfl, rest, .inr ⟨r, hport⟩⟩)

/-- No step changes the configuration (R190). -/
theorem step_params {s t : State} (h : step s = .next t) : t.params = s.params := by
  obtain ⟨-, ⟨-, rfl⟩ | ⟨rest, -, rfl⟩ | ⟨r, rest, i, -, -, hexec⟩ | ⟨r, rest, i, u, -, -, -, rfl⟩⟩ := step_next_cases h
  · rfl
  · rfl
  · exact exec_params (s := { s with port := rest }) hexec
  · rfl

/-- A fault under ABORT_ON_DEFECT leaves the block halted (R27, R171). -/
theorem halted_of_fault {i : Instr} {s t : State} {F : FaultCode} (habort : s.params.abortOnDefect = true)
    (h : exec i s = .next t) (hfault : t.responses = s.responses ++ [.fault F]) : t.halted = true := by
  have hresponse : responseTo i s.halted s.params = .fault F := by simpa [exec_responses h] using hfault
  rw [exec_halted h, hresponse, habort]
  simp [isFault]

/-- Settles O46: the invariant from the three ways of a step with HALTED, the abort, and the halt gate. -/
theorem haltedIsStickyUntilReset : Obligations.HaltedIsStickyUntilReset := by
  refine ⟨fun _ => rfl, fun s t hinv h habort => ?_, fun i s t F habort h hfault => ?_, fun s t h hs ht => ?_⟩
  · rw [step_params h] at habort
    obtain hsame | ⟨hclear, -⟩ | ⟨-, habort'⟩ := step_halted_cases h
    · rw [hsame, hinv habort]
    · exact hclear
    · simp [habort] at habort'
  · have ht : t.halted = true := halted_of_fault habort h hfault
    exact ⟨ht, fun j => by rw [exec_of_halted j ht, raise_halted_fault]⟩
  · obtain hsame | ⟨-, hreset⟩ | ⟨hset, -⟩ := step_halted_cases h
    · simp [hs, ht] at hsame
    · exact hreset
    · simp [ht] at hset

/-! ## Repeated requests (R29, R58) -/

/-- Without ABORT_ON_DEFECT a request of the format is answered in one step that changes neither HALTED nor the
configuration. -/
theorem step_request_of_not_abort {s : State} {r : Request} {rest : List HostEvent} {i : Instr}
    (hlayout : layoutOk s.params = true) (hport : s.port = .request r :: rest) (hdecode : decode s.params r = .ok i)
    (habort : s.params.abortOnDefect = false) :
    ∃ t, step s = .next t ∧ t.port = rest ∧ t.params = s.params ∧ t.halted = s.halted ∧
      t.responses = s.responses ++ [responseTo i s.halted s.params] := by
  obtain ⟨t, ht⟩ := exec_total i { s with port := rest }
  have hstep : step s = .next t := by rw [stepRunsDecodedRequest s r rest i hlayout hport hdecode, ht]
  exact ⟨t, hstep, exec_port ht, step_params hstep, exec_halted_of_not_abort (s := { s with port := rest }) ht habort,
    exec_responses (s := { s with port := rest }) ht⟩

/-- Without ABORT_ON_DEFECT the waiting requests of the format are answered one in each step, every one of them from the
HALTED and the configuration the run began with: nothing of a request is left to the next (R29). -/
theorem run_requests_of_not_abort {p : Params} {halted : Bool} {rs : List Request} {is : List Instr}
    {rest : List HostEvent} (hlayout : layoutOk p = true) (habort : p.abortOnDefect = false)
    (hdecode : List.Forall₂ (fun r i => decode p r = .ok i) rs is) {s : State} (hparams : s.params = p)
    (hhalted : s.halted = halted) (hport : s.port = rs.map HostEvent.request ++ rest) :
    ∃ t, Host.Core.run core rs.length s = .next t ∧ t.port = rest ∧
      t.responses = s.responses ++ is.map (responseTo · halted p) := by
  induction hdecode generalizing s with
  | nil => exact ⟨s, rfl, hport, by simp⟩
  | cons hr _ ih =>
    subst hparams hhalted
    obtain ⟨u, hstep, huport, huparams, huhalted, huresponses⟩ := step_request_of_not_abort hlayout hport hr habort
    obtain ⟨t, hrun, htport, htresponses⟩ := ih huparams huhalted huport
    exact ⟨t, by rw [List.length_cons, run_succ_of_next hstep, hrun], htport, by simp [htresponses, huresponses]⟩

/-- Settles O52: each response is that of its own request, HALTED and the configuration. -/
theorem equalRequestsGetEqualResponses : Obligations.EqualRequestsGetEqualResponses := by
  refine ⟨fun s r rest habort hlayout hr hport => ?_, fun s r q rest habort hlayout hr hq hport => ?_⟩
  · obtain ⟨i, hi⟩ := decode_of_fits hr
    obtain ⟨t, hrun, htport, hresponses⟩ :=
      run_requests_of_not_abort (rs := [r, r]) hlayout habort (.cons hi (.cons hi .nil)) rfl rfl hport
    exact ⟨t, _, hrun, htport, hresponses⟩
  · obtain ⟨i, hi⟩ := decode_of_fits hr
    obtain ⟨j, hj⟩ := decode_of_fits hq
    obtain ⟨t, hrun, htport, hresponses⟩ :=
      run_requests_of_not_abort (rs := [r, q, r]) hlayout habort (.cons hi (.cons hj (.cons hi .nil))) rfl rfl hport
    exact ⟨t, _, _, hrun, htport, hresponses⟩

/-! ## CSR and reset (R25, R31) -/

theorem csr_hook (s : State) : (csr s).getLsbD 0 = s.hook := by
  cases hs : s.hook <;> cases hh : s.halted <;> simp [csr, hs, hh]

theorem csr_halted (s : State) : (csr s).getLsbD 1 = s.halted := by
  cases hs : s.hook <;> cases hh : s.halted <;> simp [csr, hs, hh]

/-- A state whose HOOK is set and whose HALTED is as before has CSR with bit 0 set. -/
theorem csr_of_hook_set {s t : State} (hhook : t.hook = true) (hhalted : t.halted = s.halted) :
    csr t = csr s ||| 0b01#2 := by
  rw [csr, csr, hhook, hhalted]
  cases s.halted <;> cases s.hook <;> rfl

/-- A state whose HALTED is set and whose HOOK is as before has CSR with bit 1 set. -/
theorem csr_of_halted_set {s t : State} (hhalted : t.halted = true) (hhook : t.hook = s.hook) :
    csr t = csr s ||| 0b10#2 := by
  rw [csr, csr, hhook, hhalted]
  cases s.halted <;> cases s.hook <;> rfl

theorem csr_resetBlock (s : State) : csr (resetBlock s) = 0 := by
  rw [csr, resetBlock_hook, resetBlock_halted]
  rfl

/-- Settles O47: the two bits, and what INIT_HOOK, fault entry and reset do to them. -/
theorem csrHoldsHookAndHalted : Obligations.CsrHoldsHookAndHalted := by
  refine fun s => ⟨csr_hook s, csr_halted s, fun hs => ?_, fun F hF habort => ?_, csr_resetBlock s⟩
  · exact ⟨_, exec_initHook_of_running hs, csr_of_hook_set rfl rfl⟩
  · exact csr_of_halted_set (by rw [raise_halted, if_pos ⟨habort, hF⟩]) (raise_hook F s)

/-- Settles O1: the two fields of the reset state, and CSR of them. -/
theorem resetClearsBothStateBits : Obligations.ResetClearsBothStateBits := ⟨rfl, rfl, rfl⟩

/-- Settles O49: no response has been given at reset, HALTED is 0, and the default layout passes its assertions. -/
theorem invariantsHoldAtReset : Obligations.InvariantsHoldAtReset := by
  refine ⟨fun payload h => ?_, fun _ => rfl, by decide⟩
  exact absurd h List.not_mem_nil

end Sys2Proof.Machine

/-! # The hash input buffer, faults that leave no trace, and runs over lists of requests -/

namespace Sys2Proof.Machine

/-! ## The hash input buffer of RESCUE_V1, for a vector of any length (R51) -/

theorem littleEndian_getD {n j : Nat} (hj : j < n) (x : Nat) :
    (littleEndian n x).getD j 0 = BitVec.ofNat 8 (x / 2 ^ (8 * j) % 256) := by
  simp [littleEndian_eq_map, hj]

theorem hashBuffer_cons (x : U128) (v : List U128) :
    hashBuffer (x :: v) = littleEndian 16 x.toNat ++ hashBuffer v :=
  List.flatMap_cons

theorem hashBuffer_length (v : List U128) : (hashBuffer v).length = 16 * v.length := by
  induction v with
  | nil => rfl
  | cons x v ih => rw [hashBuffer_cons, List.length_append, littleEndian_length, ih, List.length_cons]; ring

/-- Byte `j` of element `i` stands at `16 * i + j`: past the sixteen bytes of the first element, the buffer of the
others. -/
theorem hashBuffer_getD {v : List U128} {i j : Nat} (hi : i < v.length) (hj : j < 16) :
    (hashBuffer v).getD (16 * i + j) 0 = BitVec.ofNat 8 ((v.getD i 0).toNat / 2 ^ (8 * j) % 256) := by
  induction v generalizing i with
  | nil => cases hi
  | cons x v ih =>
    rw [hashBuffer_cons]
    cases i with
    | zero =>
      rw [Nat.mul_zero, Nat.zero_add, List.getD_append _ _ _ _ (by rwa [littleEndian_length]), littleEndian_getD hj,
        List.getD_cons_zero]
    | succ i =>
      have hindex : 16 * (i + 1) + j - 16 = 16 * i + j := by omega
      rw [List.getD_append_right _ _ _ _ (by rw [littleEndian_length]; omega), littleEndian_length, hindex,
        ih (Nat.lt_of_succ_lt_succ hi), List.getD_cons_succ]

/-- Settles O26: the length and the bytes of the buffer of any vector, at four elements. -/
theorem hashBufferIsLittleEndianPerElement : Obligations.HashBufferIsLittleEndianPerElement := by
  intro v hv
  refine ⟨by rw [hashBuffer_length, hv], fun i j hi hj => ?_⟩
  rw [hashBuffer_getD (hv ▸ hi) hj, BitVec.toNat_ofNat]
  exact Nat.mod_mod _ _

/-! ## A step that takes a request -/

/-- A step that takes a request to a next state is the execution of the instruction it decodes to. -/
theorem step_request_next {s t : State} {r : Request} {rest : List HostEvent} (hport : s.port = .request r :: rest)
    (h : step s = .next t) : ∃ i, decode s.params r = .ok i ∧ exec i { s with port := rest } = .next t := by
  obtain ⟨hlayout, -⟩ := step_next_cases h
  rw [step_event hlayout hport] at h
  exact serveRequest_next h

/-! ## A fault leaves no trace (R58, R172) -/

/-- HOOK after an instruction, exactly: INIT_HOOK past the gate sets it (R26). -/
theorem exec_hook_eq {i : Instr} {s t : State} (h : exec i s = .next t) :
    t.hook = (s.hook || (!s.halted && decide (i = .initHook))) := by
  obtain ⟨hs, rfl⟩ | ⟨hs, rfl, rfl⟩ | ⟨hs, hi, rfl⟩ := exec_next_cases h
  · simp [hs]
  · simp [hs]
  · simp [hi]

/-- Only an instruction that answers OK changes HOOK. -/
theorem exec_hook_of_fault {i : Instr} {s t : State} {F : FaultCode} (h : exec i s = .next t)
    (hfault : t.responses = s.responses ++ [.fault F]) : t.hook = s.hook := by
  obtain ⟨-, rfl⟩ | ⟨-, -, rfl⟩ | ⟨-, -, rfl⟩ := exec_next_cases h
  · exact raise_hook _ _
  · simp at hfault
  · exact finish_hook _ _

/-- Two states that agree on HOOK, HALTED, the configuration and the waiting events, and have given the same responses
since the one had given `a` and the other `b`. -/
def AlikeSince (a b : List Response) (s t : State) : Prop :=
  s.hook = t.hook ∧ s.halted = t.halted ∧ s.params = t.params ∧ s.port = t.port ∧
    ∃ later, s.responses = a ++ later ∧ t.responses = b ++ later

section AlikeSince

variable {a b : List Response} {s t : State} (h : AlikeSince a b s t)

include h

theorem exec_alikeSince (i : Instr) : OutcomesAlike (AlikeSince a b) (exec i s) (exec i t) := by
  obtain ⟨hhook, hhalted, hparams, hport, later, hs, ht⟩ := h
  obtain ⟨u, hu⟩ := exec_total i s
  obtain ⟨v, hv⟩ := exec_total i t
  rw [hu, hv]
  refine .next ⟨?_, ?_, ?_, ?_, later ++ [responseTo i s.halted s.params], ?_, ?_⟩
  · rw [exec_hook_eq hu, exec_hook_eq hv, hhook, hhalted]
  · rw [exec_halted hu, exec_halted hv, hhalted, hparams]
  · rw [exec_params hu, exec_params hv, hparams]
  · rw [exec_port hu, exec_port hv, hport]
  · rw [exec_responses hu, hs, List.append_assoc]
  · rw [exec_responses hv, ht, hhalted, hparams, List.append_assoc]

theorem serveRequest_alikeSince (r : Request) :
    OutcomesAlike (AlikeSince a b) (serveRequest r s) (serveRequest r t) := by
  obtain ⟨-, -, hparams, -, -⟩ := id h
  cases hdecode : decode s.params r with
  | ok i =>
    rw [serveRequest_of_decode hdecode, serveRequest_of_decode (hparams ▸ hdecode)]
    exact exec_alikeSince h i
  | error e =>
    rw [serveRequest_of_excluded hdecode, serveRequest_of_excluded (hparams ▸ hdecode)]
    exact .fault _

/-- Reset in the middle of an operation forgets the operation, so the agreement before it is what remains (R190). -/
theorem serveAbandoned_alikeSince (r : Request) :
    OutcomesAlike (AlikeSince a b) (serveAbandoned r s) (serveAbandoned r t) := by
  have hserved := serveRequest_alikeSince h r
  obtain ⟨-, -, hparams, hport, hlater⟩ := h
  unfold serveAbandoned
  generalize serveRequest r s = x, serveRequest r t = y at hserved
  cases hserved with
  | next _ => exact .next ⟨rfl, rfl, hparams, hport, hlater⟩
  | fault e => exact .fault e
  | refused e => exact .refused e

theorem serve_alikeSince (event : HostEvent) : OutcomesAlike (AlikeSince a b) (serve event s) (serve event t) := by
  cases event with
  | request r => exact serveRequest_alikeSince h r
  | abandoned r => exact serveAbandoned_alikeSince h r
  | reset =>
    obtain ⟨-, -, hparams, hport, hlater⟩ := h
    exact .next ⟨rfl, rfl, hparams, hport, hlater⟩

theorem step_alikeSince : OutcomesAlike (AlikeSince a b) (step s) (step t) := by
  obtain ⟨hhook, hhalted, hparams, hport, hlater⟩ := id h
  by_cases hlayout : layoutOk s.params = true
  · have hlayout' : layoutOk t.params = true := hparams ▸ hlayout
    cases hs : s.port with
    | nil =>
      rw [step_idle hlayout hs, step_idle hlayout' (hport ▸ hs)]
      exact .next h
    | cons event rest =>
      rw [step_event hlayout hs, step_event hlayout' (hport ▸ hs)]
      have hrest : AlikeSince a b { s with port := rest } { t with port := rest } :=
        ⟨hhook, hhalted, hparams, rfl, hlater⟩
      exact serve_alikeSince hrest event
  · rw [step_of_layoutDefect hlayout, step_of_layoutDefect (hparams ▸ hlayout)]
    exact .refused _

end AlikeSince

/-- Without ABORT_ON_DEFECT a faulting instruction changes nothing a later step reads. -/
theorem alikeSince_of_fault {i : Instr} {s t : State} {F : FaultCode} (habort : s.params.abortOnDefect = false)
    (h : exec i s = .next t) (hfault : t.responses = s.responses ++ [.fault F]) :
    AlikeSince t.responses s.responses t s :=
  ⟨exec_hook_of_fault h hfault, exec_halted_of_not_abort h habort, exec_params h, exec_port h, [], by simp⟩

/-- Settles O51: the faulting step leads to a state alike the one without the request, and steps keep them alike. -/
theorem faultLeavesNoTrace : Obligations.FaultLeavesNoTrace := by
  refine ⟨fun s t r rest F habort hport hstep hfault k => ?_, fun s t r rest F habort hport hstep hfault => ?_⟩
  · obtain ⟨i, -, hexec⟩ := step_request_next hport hstep
    have halike : AlikeSince t.responses s.responses t { s with port := rest } :=
      alikeSince_of_fault (s := { s with port := rest }) habort hexec hfault
    have hruns := run_alike (fun _ _ => step_alikeSince) k halike
    generalize Host.Core.run core k t = x, Host.Core.run core k { s with port := rest } = y at hruns
    cases hruns with
    | next h => exact h
    | fault | refused => rfl
  · obtain ⟨i, -, hexec⟩ := step_request_next hport hstep
    exact halted_of_fault (s := { s with port := rest }) habort hexec hfault

/-! ## A run over a list of requests (R71, R200, R201) -/

/-- A built block answers a request of the format in one step. The response depends on neither the waiting events nor the
past, so executing the instruction before the request is taken off the port gives the same one. -/
theorem step_request_of_fits {s : State} {r : Request} {rest : List HostEvent} (hlayout : layoutOk s.params = true)
    (hfits : r.fits s.params = true) (hport : s.port = .request r :: rest) :
    ∃ t i x, step s = .next t ∧ t.port = rest ∧ t.params = s.params ∧ t.responses = s.responses ++ [x] ∧
      decode s.params r = .ok i ∧ ∃ v, exec i s = .next v ∧ v.responses = s.responses ++ [x] := by
  obtain ⟨i, hdecode⟩ := decode_of_fits hfits
  obtain ⟨t, ht⟩ := exec_total i { s with port := rest }
  obtain ⟨v, hv⟩ := exec_total i s
  have hstep : step s = .next t := by rw [stepRunsDecodedRequest s r rest i hlayout hport hdecode, ht]
  exact ⟨t, i, responseTo i s.halted s.params, hstep, exec_port ht, step_params hstep,
    exec_responses (s := { s with port := rest }) ht, hdecode, v, hv, exec_responses hv⟩

/-- Settles O53, by induction on the requests: the first is answered in one step, which leaves the others waiting; the
state before the later ones is the one the shorter run reaches, one step further on. -/
theorem runAnswersEveryRequestInOrder : Obligations.RunAnswersEveryRequestInOrder := by
  intro rs
  induction rs with
  | nil => exact fun s _ _ hport => ⟨s, [], rfl, hport, rfl, by simp, rfl, fun k r hr => by simp at hr⟩
  | cons q rs ih =>
    intro s hlayout hfits hport
    obtain ⟨hq, hrs⟩ := List.forall_mem_cons.mp hfits
    obtain ⟨s', i, x, hstep, hport', hparams', hresponses', hdecode, v, hexec, hv⟩ :=
      step_request_of_fits hlayout hq hport
    rw [← hparams'] at hlayout hrs
    obtain ⟨t, new, hrun, htport, htparams, htresponses, hlength, hkth⟩ := ih s' hlayout hrs hport'
    refine ⟨t, x :: new, ?_, htport, htparams.trans hparams', ?_, ?_, fun k r hr => ?_⟩
    · rw [List.length_cons, run_succ_of_next hstep, hrun]
    · simp [htresponses, hresponses']
    · rw [List.length_cons, List.length_cons, hlength]
    · cases k with
      | zero =>
        cases hr
        exact ⟨s, v, i, x, rfl, by simp, hdecode, hexec, rfl, hv⟩
      | succ k =>
        obtain ⟨u, w, j, y, hrunk, huresponses, hdecodek, hexeck, hy, hw⟩ := hkth k r hr
        exact ⟨u, w, j, y, by rw [run_succ_of_next hstep, hrunk], by simp [huresponses, hresponses'],
          hparams' ▸ hdecodek, hexeck, hy, hw⟩

end Sys2Proof.Machine

/-! # The rows of the IR32 format by class, and the codec of requests -/

namespace Sys2Proof.Machine

/-! ## The rows by class and number (R75) -/

/-- The row number `k` of the class a reading names, on the word `w`; the class of the whole word has one row. -/
def rowOf (reading : Reading) (k w : Nat) : Instr :=
  match reading with
  | .whole => .ir w
  | .cfOp => cfRow k w
  | .ldOp => ldRow k w
  | .hdOp => hdRow k w

/-- The opcode field of a class of rows. The row of the whole word has none: an empty range, whose field holds 0. -/
def rowRange : Reading → BitRange
  | .whole => ⟨0, 0⟩
  | .cfOp => Config.cfOpBitsRange
  | .ldOp => Config.ldOpBitsRange
  | .hdOp => Config.hdOpBitsRange

/-- How many rows a class has (R6). -/
def rowCount : Reading → Nat
  | .whole => 1
  | .cfOp => 8
  | .ldOp => 32
  | .hdOp => 4

theorem cfRows_eq_map (w : Nat) : cfRows w = (List.range 8).map (cfRow · w) := rfl
theorem ldRows_eq_map (w : Nat) : ldRows w = (List.range 32).map (ldRow · w) := rfl
theorem hdRows_eq_map (w : Nat) : hdRows w = (List.range 4).map (hdRow · w) := rfl

/-- The instructions that carry an IR word are the numbered rows of the four classes. -/
theorem exists_rowOf_of_irWordOf {i : Instr} {w : Nat} (h : irWordOf i = some w) :
    ∃ reading k, k < rowCount reading ∧ i = rowOf reading k w := by
  have of_rows : i ∈ cfRows w ∨ i ∈ ldRows w ∨ i ∈ hdRows w →
      ∃ reading k, k < rowCount reading ∧ i = rowOf reading k w := by
    simp only [cfRows_eq_map, ldRows_eq_map, hdRows_eq_map, List.mem_map, List.mem_range]
    rintro (⟨k, hk, rfl⟩ | ⟨k, hk, rfl⟩ | ⟨k, hk, rfl⟩)
    · exact ⟨.cfOp, k, hk, rfl⟩
    · exact ⟨.ldOp, k, hk, rfl⟩
    · exact ⟨.hdOp, k, hk, rfl⟩
  cases i with
  | irdec | irenc | rescueV1 | rescueV2 | rescueV3 | initHook | illegalCmd6 | illegalCmd7 => cases h
  | ir => cases h; exact ⟨.whole, 0, by decide, rfl⟩
  | _ =>
    cases h
    exact of_rows (by simp [cfRows, ldRows, hdRows])

section Row

variable {reading : Reading} {k : Nat} (hk : k < rowCount reading) (w : Nat)

include hk

theorem irWordOf_rowOf : irWordOf (rowOf reading k w) = some w := by
  cases reading with
  | whole => rfl
  | cfOp | ldOp | hdOp =>
    simp only [rowCount] at hk
    interval_cases k <;> rfl

theorem encode_rowOf : encode (rowOf reading k w) = ⟨0, .word (some reading) w⟩ := by
  cases reading with
  | whole => rfl
  | cfOp | ldOp | hdOp =>
    simp only [rowCount] at hk
    interval_cases k <;> rfl

/-- A row is well formed when its word fits the register and matches the row. -/
theorem wf_rowOf (p : Params) : (rowOf reading k w).wf p =
    (decide (w < 2 ^ p.irWidth) && rowMatches (rowRange reading).lo (rowRange reading).width k w) := by
  cases reading with
  | whole =>
    obtain rfl : k = 0 := Nat.lt_one_iff.mp hk
    simp [rowOf, Instr.wf, rowMatches, rowRange, BitRange.width, Nat.mod_one]
  | cfOp | ldOp | hdOp =>
    simp only [rowCount] at hk
    interval_cases k <;> rfl

theorem wf_rowOf_iff {p : Params} : (rowOf reading k w).wf p = true ↔
    w < 2 ^ p.irWidth ∧ w < 2 ^ 24 ∧ irField w (rowRange reading) = k := by
  simp [wf_rowOf hk, rowMatches, irField, BitRange.width]

end Row

/-- The number an opcode field holds is that of a row of its class. -/
theorem irField_rowRange_lt (reading : Reading) (w : Nat) : irField w (rowRange reading) < rowCount reading := by
  cases reading <;> exact irField_lt w _

/-! ## Decoding and encoding requests (R70, R72, R200) -/

/-- A word with zero bits from 24 up is decoded to the row its reading names and its opcode field numbers (R75). -/
theorem decodeIrWord_some {w : Nat} (h : w < 2 ^ 24) (reading : Reading) :
    decodeIrWord (some reading) w = rowOf reading (irField w (rowRange reading)) w := by
  cases reading <;> exact if_pos h

@[simp] theorem decodeIrWord_none (w : Nat) : decodeIrWord none w = .irdec w := by
  unfold decodeIrWord
  split_ifs <;> rfl

/-- An IRDEC request is decoded to plain IRDEC or to the row its reading names. -/
theorem decodeIrWord_cases (reading : Option Reading) (w : Nat) : decodeIrWord reading w = .irdec w ∨
    ∃ row, w < 2 ^ 24 ∧ decodeIrWord reading w = rowOf row (irField w (rowRange row)) w := by
  cases reading with
  | none => exact .inl (decodeIrWord_none w)
  | some row =>
    by_cases h : w < 2 ^ 24
    · exact .inr ⟨row, h, decodeIrWord_some h row⟩
    · exact .inl (if_neg h)

theorem decodeIrWord_wf {p : Params} {w : Nat} (h : w < 2 ^ p.irWidth) (reading : Option Reading) :
    (decodeIrWord reading w).wf p = true := by
  obtain hdec | ⟨row, hw, hdec⟩ := decodeIrWord_cases reading w
  · rw [hdec]
    exact decide_eq_true h
  · rw [hdec, wf_rowOf_iff (irField_rowRange_lt row w)]
    exact ⟨h, hw, rfl⟩

theorem encode_decodeIrWord_cmd (reading : Option Reading) (w : Nat) : (encode (decodeIrWord reading w)).cmd = 0 := by
  obtain hdec | ⟨row, -, hdec⟩ := decodeIrWord_cases reading w
  · rw [hdec]; rfl
  · rw [hdec, encode_rowOf (irField_rowRange_lt row w)]

theorem decode_word {p : Params} {w : Nat} (h : w < 2 ^ p.irWidth) (reading : Option Reading) :
    decode p ⟨0, .word reading w⟩ = .ok (decodeIrWord reading w) := if_pos h

/-- Settles O5: a row is given back by its reading and the number in its field, a command by its code. -/
theorem decodeEncodeRoundTrip : Obligations.DecodeEncodeRoundTrip := by
  intro p i hwf
  cases hword : irWordOf i with
  | some w =>
    obtain ⟨reading, k, hk, rfl⟩ := exists_rowOf_of_irWordOf hword
    obtain ⟨hwidth, hw, hfield⟩ := (wf_rowOf_iff hk w).mp hwf
    rw [encode_rowOf hk, decode_word hwidth, decodeIrWord_some hw, hfield]
  | none =>
    cases i with
    | irdec w => exact (decode_word (of_decide_eq_true hwf) none).trans (by rw [decodeIrWord_none])
    | irenc f => exact if_pos hwf
    | rescueV1 | rescueV2 | rescueV3 | initHook | illegalCmd6 | illegalCmd7 => rfl
    | _ => cases hword

/-- The eight command codes (R72). -/
theorem cmd_cases : ∀ cmd : BitVec 3, cmd = 0 ∨ cmd = 1 ∨ cmd = 2 ∨ cmd = 3 ∨ cmd = 4 ∨ cmd = 5 ∨ cmd = 6 ∨ cmd = 7 := by
  decide

/-- What the decoder accepts: the encoding of a well-formed command, or an IRDEC request whose word fits. -/
theorem decode_ok_cases {p : Params} {r : Request} {i : Instr} (h : decode p r = .ok i) :
    (r = encode i ∧ i.wf p = true ∧ r.fits p = true) ∨
      ∃ reading w, r = ⟨0, .word reading w⟩ ∧ w < 2 ^ p.irWidth ∧ i = decodeIrWord reading w := by
  obtain ⟨cmd, payload⟩ := r
  obtain rfl | rfl | rfl | rfl | rfl | rfl | rfl | rfl := cmd_cases cmd
  · cases payload with
    | word reading w =>
      by_cases hw : w < 2 ^ p.irWidth
      · cases (decode_word hw reading).symm.trans h
        exact .inr ⟨reading, w, rfl, hw, rfl⟩
      · cases (if_neg hw).symm.trans h
    | _ => cases h
  · cases payload with
    | fields f =>
      by_cases hf : f.fits p = true
      · cases (if_pos hf).symm.trans h
        exact .inl ⟨rfl, hf, hf⟩
      · cases (if_neg hf).symm.trans h
    | _ => cases h
  iterate 3
    cases payload with
    | data d =>
      cases h
      exact .inl ⟨rfl, rfl, rfl⟩
    | _ => cases h
  · cases payload with
    | absent =>
      cases h
      exact .inl ⟨rfl, rfl, rfl⟩
    | _ => cases h
  · cases h
    exact .inl ⟨rfl, rfl, rfl⟩
  · cases h
    exact .inl ⟨rfl, rfl, rfl⟩

/-- What the decoder gives is well formed. -/
theorem wf_of_decode {p : Params} {r : Request} {i : Instr} (h : decode p r = .ok i) : i.wf p = true := by
  obtain ⟨-, hwf, -⟩ | ⟨reading, w, -, hw, rfl⟩ := decode_ok_cases h
  · exact hwf
  · exact decodeIrWord_wf hw reading

/-- Settles O6: each of the two kinds of accepted request fits the format, and its instruction is well formed and keeps
the command code. -/
theorem decoderAcceptsExactlyTheRequestFormat : Obligations.DecoderAcceptsExactlyTheRequestFormat := by
  refine fun p r => ⟨⟨fun ⟨i, h⟩ => ?_, decode_of_fits⟩, fun i h => ⟨wf_of_decode h, ?_⟩⟩
  · obtain ⟨-, -, hfits⟩ | ⟨reading, w, rfl, hw, -⟩ := decode_ok_cases h
    · exact hfits
    · exact decide_eq_true hw
  · obtain ⟨rfl, -, -⟩ | ⟨reading, w, rfl, -, rfl⟩ := decode_ok_cases h
    · rfl
    · exact encode_decodeIrWord_cmd reading w

/-- Settles O7: each request is a closed term, which the decoder evaluates. -/
theorem knownRequestsDecode : Obligations.KnownRequestsDecode := by
  unfold Obligations.KnownRequestsDecode
  decide

end Sys2Proof.Machine

/-! # Sound answers, the default layout, and the legal words -/

namespace Sys2Proof.Machine

/-! ## Sound answers (R71, R128, R129, R160) -/

theorem legalWord_assembleFields {p : Params} (hlayout : layoutOk p = true) {f : IrFields} (hfits : f.fits p = true)
    (hlegal : LegalFields p f) : LegalWord p (assembleFields p f) :=
  ⟨assembleFields_lt hlayout hfits, reservedBits_assembleFields hlayout hfits,
    by rwa [extractFields_assembleFields hlayout hfits]⟩

/-- IRENC answers the assembled word, exactly when the fields pass the range tests (R106). -/
theorem irencAnswer_eq_ok_iff {p : Params} {f : IrFields} {payload : OkPayload} : irencAnswer p f = .ok payload ↔
    LegalFields p f ∧ payload = .word (assembleFields p f) := by
  unfold irencAnswer
  cases hcheck : checkFields p f with
  | error code =>
    have hrejected : ¬ LegalFields p f := fun hlegal => by
      simp [checkFields_eq_ok_iff.mpr ⟨hlegal, rfl⟩] at hcheck
    simp [hrejected]
  | ok g =>
    obtain ⟨hlegal, rfl⟩ := checkFields_eq_ok_iff.mp hcheck
    exact ⟨fun h => ⟨hlegal, (Except.ok.inj h).symm⟩, fun h => congrArg Except.ok h.2.symm⟩

/-- IRDEC answers fields and nothing else (R101). -/
theorem exists_fields_of_irdecAnswer {p : Params} {w : Nat} {payload : OkPayload} (h : irdecAnswer p w = .ok payload) :
    ∃ f, payload = .fields f := by
  unfold irdecAnswer at h
  split_ifs at h
  split at h
  · cases h
  · next f _ =>
    cases h
    exact ⟨f, rfl⟩

section Sound

variable {p : Params} {payload : OkPayload}

theorem irdecAnswer_sound {w : Nat} (h : irdecAnswer p w = .ok payload) : SoundPayload p payload := by
  obtain ⟨f, rfl⟩ := exists_fields_of_irdecAnswer h
  obtain ⟨-, hlegal, rfl⟩ := irdecAnswer_eq_ok_iff.mp h
  exact ⟨extractFields_fits p w, hlegal⟩

theorem irencAnswer_sound {f : IrFields} (hlayout : layoutOk p = true) (hfits : f.fits p = true)
    (h : irencAnswer p f = .ok payload) : SoundPayload p payload := by
  obtain ⟨hlegal, rfl⟩ := irencAnswer_eq_ok_iff.mp h
  exact legalWord_assembleFields hlayout hfits hlegal

theorem rescueV1Answer_sound {FE : Type} {c : Collaborators FE} {T : List Byte}
    (h : rescueV1Answer c p T = .ok payload) : SoundPayload p payload := by
  unfold rescueV1Answer at h
  split at h
  · cases h
  · dsimp only at h
    split_ifs at h with hsize
    cases h
    exact hsize

theorem rescueV2Answer_sound {FE : Type} {c : Collaborators FE} {T : List Byte}
    (h : rescueV2Answer c p T = .ok payload) : SoundPayload p payload := by
  unfold rescueV2Answer at h
  split at h
  · cases h
  · dsimp only at h
    split_ifs at h with hsize
    cases h
    exact (List.length_map _).trans hsize

theorem rescueV3Answer_sound {FE : Type} {c : Collaborators FE} {T : List Byte}
    (h : rescueV3Answer c p T = .ok payload) : SoundPayload p payload := by
  unfold rescueV3Answer at h
  dsimp only at h
  split_ifs at h with hlong hsize htext
  cases h
  exact ⟨not_not.mp hsize, htext⟩

/-- An OK answer of a well-formed instruction is complete and correctly sized: IRENC is the one instruction whose operand
must fit for it. -/
theorem answerOf_sound {i : Instr} (hlayout : layoutOk p = true) (hwf : i.wf p = true)
    (h : answerOf i p = .ok payload) : SoundPayload p payload := by
  cases i with
  | irenc f => exact irencAnswer_sound hlayout hwf h
  | rescueV1 data => exact rescueV1Answer_sound h
  | rescueV2 data => exact rescueV2Answer_sound h
  | rescueV3 data => exact rescueV3Answer_sound h
  | initHook => cases h; trivial
  | illegalCmd6 | illegalCmd7 => cases h
  | _ => exact irdecAnswer_sound h

end Sound

/-- The response of an instruction is OK only with the instruction's own answer. -/
theorem answerOf_of_responseTo_ok {i : Instr} {halted : Bool} {p : Params} {payload : OkPayload}
    (h : responseTo i halted p = .ok payload) : answerOf i p = .ok payload := by
  cases halted with
  | true => cases h
  | false =>
    cases ha : answerOf i p with
    | ok answer => simpa [responseTo, responseOf, ha] using h
    | error code => simp [responseTo, responseOf, ha] at h

theorem exec_responsesSound {i : Instr} {s t : State} (hlayout : layoutOk s.params = true)
    (hwf : i.wf s.params = true) (hsound : ResponsesSound s) (h : exec i s = .next t) : ResponsesSound t := by
  intro payload hmem
  rw [exec_params h]
  rw [exec_responses h, List.mem_append, List.mem_singleton] at hmem
  obtain hearlier | hnew := hmem
  · exact hsound payload hearlier
  · exact answerOf_sound hlayout hwf (answerOf_of_responseTo_ok hnew.symm)

/-- Settles O48: only a request adds a response, and the decoder hands exec a well-formed instruction. -/
theorem responsesStaySound : Obligations.ResponsesStaySound := by
  intro s t hsound h
  obtain ⟨hlayout, ⟨-, rfl⟩ | ⟨rest, -, rfl⟩ | ⟨r, rest, i, -, hdecode, hexec⟩ | ⟨r, rest, i, u, -, -, -, rfl⟩⟩ :=
    step_next_cases h
  · exact hsound
  · exact hsound
  · exact exec_responsesSound (s := { s with port := rest }) hlayout (wf_of_decode hdecode) hsound hexec
  · exact hsound

/-! ## The default layout (R73, R76, R101) -/

section DefaultLayout

variable {p : Params} (hp : DefaultLayout p)

include hp

/-- The seven fields of a word with the first bits of their ranges as numerals. -/
theorem extractFields_default (w : Nat) : extractFields p w =
    ⟨BitVec.ofNat 1 (w % 2), BitVec.ofNat 4 (w / 2 % 16), BitVec.ofNat 3 (w / 32 % 8), BitVec.ofNat 5 (w / 256 % 32),
      BitVec.ofNat 2 (w / 8192 % 4), w / 32768 % 32, w / 1048576 % 16⟩ := by
  obtain ⟨-, hctx, hloop⟩ := hp
  simp [extractFields, irField, hctx, hloop, Config.opCounterRange, Config.spongeRange, Config.cfOpBitsRange,
    Config.ldOpBitsRange, Config.hdOpBitsRange]

theorem legalFields_extractFields_default (w : Nat) : LegalFields p (extractFields p w) ↔
    w / 2 % 16 ≤ p.spongeSelMax.val ∧ w / 32768 % 32 ≤ 16 ∧ w / 1048576 % 16 ≤ 8 := by
  simp [extractFields_default hp, LegalFields]

/-- IRDEC accepts a 32-bit word exactly when no bit from 24 up is set and its selector and depths are within their bounds
(R76). -/
theorem irdecAnswer_default_eq_ok_iff {w : Nat} (hw : w < 2 ^ 32) {f : IrFields} : irdecAnswer p w = .ok (.fields f) ↔
    w < 2 ^ 24 ∧ (w / 2 % 16 ≤ p.spongeSelMax.val ∧ w / 32768 % 32 ≤ 16 ∧ w / 1048576 % 16 ≤ 8) ∧
      extractFields p w = f := by
  obtain ⟨hwidth, hctx, hloop⟩ := id hp
  rw [irdecAnswer_eq_ok_iff, reservedBits_default (by omega) hctx hloop (by rwa [hwidth]),
    ← legalFields_extractFields_default hp, Nat.div_eq_zero_iff_lt (by positivity)]
  exact and_congr_right fun _ => and_congr_left fun hf => by rw [hf]

end DefaultLayout

/-! ## The rows at the default layout (R75, R143, R144, R145) -/

theorem getElem?_map_range {α : Type} {f : Nat → α} {n k : Nat} {a : α} (h : ((List.range n).map f)[k]? = some a) :
    k < n ∧ a = f k := by
  obtain ⟨hk, rfl⟩ := List.getElem?_eq_some_iff.mp h
  simpa using hk

/-- A well-formed row whose selector and depths are in range answers the fields of its word and does nothing else. -/
theorem exec_rowOf_default {reading : Reading} {k w : Nat} {s : State} (hk : k < rowCount reading)
    (hs : s.halted = false) (hp : DefaultLayout s.params) (hwf : (rowOf reading k w).wf s.params = true)
    (hsel : w / 2 % 16 ≤ s.params.spongeSelMax.val) (hctx : w / 32768 % 32 ≤ 16) (hloop : w / 1048576 % 16 ≤ 8) :
    exec (rowOf reading k w) s = .next (respond (.ok (.fields
      ⟨BitVec.ofNat 1 (w % 2), BitVec.ofNat 4 (w / 2 % 16), BitVec.ofNat 3 (w / 32 % 8), BitVec.ofNat 5 (w / 256 % 32),
        BitVec.ofNat 2 (w / 8192 % 4), w / 32768 % 32, w / 1048576 % 16⟩)) s) := by
  obtain ⟨-, hw, -⟩ := (wf_rowOf_iff hk w).mp hwf
  have hanswer : irdecAnswer s.params w = .ok (.fields (extractFields s.params w)) :=
    (irdecAnswer_default_eq_ok_iff hp (by omega)).mpr ⟨hw, ⟨hsel, hctx, hloop⟩, rfl⟩
  rw [everyRowActsAsIrdec _ w s (irWordOf_rowOf hk w) hwf, exec_of_running (by simp) hs, answerOf, hanswer, finish,
    extractFields_default hp]

/-- Settles O18: the rows of the control-flow field, whose number is the field. -/
theorem controlFlowRowsDecodeWithoutEffect : Obligations.ControlFlowRowsDecodeWithoutEffect := by
  intro k w i s hrow hs hp hwf hsel hctx hloop
  obtain ⟨hk, rfl⟩ := getElem?_map_range (cfRows_eq_map w ▸ hrow)
  obtain ⟨-, -, rfl⟩ := (wf_rowOf_iff (reading := .cfOp) hk w).mp hwf
  exact exec_rowOf_default (reading := .cfOp) hk hs hp hwf hsel hctx hloop

/-- Settles O19: the rows of the stack-load field, whose number is the field. -/
theorem stackLoadRowsDecodeWithoutEffect : Obligations.StackLoadRowsDecodeWithoutEffect := by
  intro k w i s hrow hs hp hwf hsel hctx hloop
  obtain ⟨hk, rfl⟩ := getElem?_map_range (ldRows_eq_map w ▸ hrow)
  obtain ⟨-, -, rfl⟩ := (wf_rowOf_iff (reading := .ldOp) hk w).mp hwf
  exact exec_rowOf_default (reading := .ldOp) hk hs hp hwf hsel hctx hloop

/-- Settles O20: the rows of the hash-domain field, whose number is the field. -/
theorem hashDomainRowsDecodeWithoutEffect : Obligations.HashDomainRowsDecodeWithoutEffect := by
  intro k w i s hrow hs hp hwf hsel hctx hloop
  obtain ⟨hk, rfl⟩ := getElem?_map_range (hdRows_eq_map w ▸ hrow)
  obtain ⟨-, -, rfl⟩ := (wf_rowOf_iff (reading := .hdOp) hk w).mp hwf
  exact exec_rowOf_default (reading := .hdOp) hk hs hp hwf hsel hctx hloop

/-- Settles O21: the one row of the whole word. -/
theorem wholeWordRowDecodes : Obligations.WholeWordRowDecodes :=
  fun _ _ hs hp hwf hsel hctx hloop =>
    exec_rowOf_default (reading := .whole) (k := 0) (by decide) hs hp hwf hsel hctx hloop

/-! ## Reserved bits and legal words (R73, R76, R102) -/

/-- Settles O9: the bits of the reserved mask in every admitted layout, and its value at the defaults. -/
theorem reservedBitsAreTheBitsOfNoField : Obligations.ReservedBitsAreTheBitsOfNoField := by
  refine ⟨fun p b hlayout => ?_, by decide⟩
  simp [testBit_reservedMask hlayout, inRange]

/-- The test that a reported range fault comes from (R101). -/
theorem checkFields_error_cases {p : Params} {f : IrFields} {code : FaultCode} (h : checkFields p f = .error code) :
    (code = .irOpcodeRange ∧ (f.cf.toNat ≥ 8 ∨ f.ld.toNat ≥ 32 ∨ f.hd.toNat ≥ 4)) ∨
    (code = .irSpongeSel ∧ f.s.toNat > p.spongeSelMax.val) ∨ (code = .irCtxDepth ∧ f.ctx > 16) ∨
    (code = .irLoopDepth ∧ f.loop > 8) := by
  unfold checkFields at h
  split_ifs at h with hop hsel hctx hloop <;> cases h
  · exact .inl ⟨rfl, hop⟩
  · exact .inr (.inl ⟨rfl, hsel⟩)
  · exact .inr (.inr (.inl ⟨rfl, hctx⟩))
  · exact .inr (.inr (.inr ⟨rfl, hloop⟩))

/-- IRDEC reports the reserved test, or a range test on the extracted fields (R101). -/
theorem irdecAnswer_error_cases {p : Params} {w : Nat} {code : FaultCode} (h : irdecAnswer p w = .error code) :
    (code = .irReserved ∧ reservedBits p w ≠ 0) ∨ checkFields p (extractFields p w) = .error code := by
  unfold irdecAnswer at h
  split_ifs at h with hres
  · cases h
    exact .inl ⟨rfl, hres⟩
  · split at h
    · next hcheck =>
      cases h
      exact .inr hcheck
    · cases h

theorem irdecAnswer_default_isOk_iff {p : Params} (hp : DefaultLayout p) {w : Nat} (hw : w < 2 ^ 32) :
    (irdecAnswer p w).isOk = true ↔
      w < 2 ^ 24 ∧ w / 2 % 16 ≤ p.spongeSelMax.val ∧ w / 32768 % 32 ≤ 16 ∧ w / 1048576 % 16 ≤ 8 := by
  have hiff := @irdecAnswer_default_eq_ok_iff p hp w hw
  cases ha : irdecAnswer p w with
  | error code =>
    have := (hiff (f := extractFields p w)).not.mp (by simp [ha])
    simpa [Except.isOk, Except.toBool] using this
  | ok payload =>
    obtain ⟨f, rfl⟩ := exists_fields_of_irdecAnswer ha
    obtain ⟨hlow, hbounds, -⟩ := hiff.mp ha
    simpa [Except.isOk, Except.toBool] using ⟨hlow, hbounds⟩

/-- A word of the default layout from its low fifteen bits and its two depths, each depth within its bound (R103). -/
def wordOfParts (q : Fin 32768 × Fin 17 × Fin 9) : Nat := q.1.val + 32768 * q.2.1.val + 1048576 * q.2.2.val

theorem wordOfParts_injective : Function.Injective wordOfParts := by
  rintro ⟨low, ctx, loop⟩ ⟨low', ctx', loop'⟩ h
  simp only [wordOfParts] at h
  simp only [Prod.mk.injEq, Fin.ext_iff]
  omega

theorem exists_wordOfParts_iff (w : Nat) :
    (∃ q, wordOfParts q = w) ↔ w < 2 ^ 24 ∧ w / 32768 % 32 ≤ 16 ∧ w / 1048576 % 16 ≤ 8 := by
  constructor
  · rintro ⟨⟨low, ctx, loop⟩, rfl⟩
    simp only [wordOfParts]
    omega
  · rintro ⟨hlow, hctx, hloop⟩
    refine ⟨⟨⟨w % 32768, by omega⟩, ⟨w / 32768 % 32, by omega⟩, ⟨w / 1048576 % 16, by omega⟩⟩, ?_⟩
    simp only [wordOfParts]
    omega

/-- The words IRDEC accepts at the defaults: the selector cannot be too large (R76, R105). -/
theorem mem_legalWords_default_iff (w : Nat) :
    w ∈ (Finset.range (2 ^ 32)).filter (fun w => (irdecAnswer Config.defaults w).isOk = true) ↔
      w < 2 ^ 24 ∧ w / 32768 % 32 ≤ 16 ∧ w / 1048576 % 16 ≤ 8 := by
  have hdefault : DefaultLayout Config.defaults := ⟨rfl, rfl, rfl⟩
  have hsel : w / 2 % 16 ≤ 15 := by omega
  rw [Finset.mem_filter, Finset.mem_range]
  constructor
  · rintro ⟨hw, hok⟩
    obtain ⟨hlow, -, hdepths⟩ := (irdecAnswer_default_isOk_iff hdefault hw).mp hok
    exact ⟨hlow, hdepths⟩
  · rintro ⟨hlow, hdepths⟩
    have hw : w < 2 ^ 32 := by omega
    exact ⟨hw, (irdecAnswer_default_isOk_iff hdefault hw).mpr ⟨hlow, hsel, hdepths⟩⟩

/-- At the defaults any low fifteen bits are legal, and 17 and 9 values of the depths (R76). -/
theorem card_legalWords_default :
    ((Finset.range (2 ^ 32)).filter (fun w => (irdecAnswer Config.defaults w).isOk = true)).card =
      32768 * (17 * 9) := by
  have himage : (Finset.range (2 ^ 32)).filter (fun w => (irdecAnswer Config.defaults w).isOk = true) =
      Finset.univ.image wordOfParts := by
    ext w
    rw [mem_legalWords_default_iff, ← exists_wordOfParts_iff]
    simp
  rw [himage, Finset.card_image_of_injective _ wordOfParts_injective, Finset.card_univ, Fintype.card_prod,
    Fintype.card_prod, Fintype.card_fin, Fintype.card_fin, Fintype.card_fin]

/-- Settles O15: IRDEC's tests with the first bits of the fields as numerals, the legal words counted by their depths, and
the largest word IRENC assembles. -/
theorem illegalIrWordsAndLegalWordCount : Obligations.IllegalIrWordsAndLegalWordCount := by
  have hdefault : DefaultLayout Config.defaults := ⟨rfl, rfl, rfl⟩
  have hmax : (Config.defaults.spongeSelMax).val = 15 := rfl
  refine ⟨fun w hw => ?_, fun w code hw h => ?_, ?_, fun f w h => ?_⟩
  · have herror : (∃ code, irdecAnswer Config.defaults w = .error code) ↔
        ¬ (irdecAnswer Config.defaults w).isOk = true := by
      cases irdecAnswer Config.defaults w <;> simp [Except.isOk, Except.toBool]
    rw [herror, irdecAnswer_default_isOk_iff hdefault hw, hmax]
    omega
  · obtain ⟨rfl, hres⟩ | hcheck := irdecAnswer_error_cases h
    · exact .inl ⟨rfl, (reservedBits_default (by decide) rfl rfl hw).not.mp hres⟩
    · have hrange := checkFields_error_cases hcheck
      simp only [extractFields_default hdefault, BitVec.toNat_ofNat, hmax] at hrange
      exact .inr (by simpa using hrange)
  · exact card_legalWords_default
  · obtain ⟨⟨-, hctx, hloop⟩, hword⟩ := irencAnswer_eq_ok_iff.mp h
    cases hword
    rw [assembleFields_eq_sum]
    simp only [Config.defaults]
    have := f.n.isLt
    have := f.s.isLt
    have := f.cf.isLt
    have := f.ld.isLt
    have := f.hd.isLt
    omega

end Sys2Proof.Machine

/-! # Statuses, and the texts of decimal integers -/

namespace Sys2Proof.Machine

/-! ## Responses and their statuses (R71, R161) -/

/-- A list of statuses holds an instruction's status when it holds ERR_HALTED, OK if the instruction can answer OK, and
the codes of the faults it can answer. -/
theorem responseStatus_responseTo_mem {i : Instr} {halted : Bool} {p : Params} {statuses : List (BitVec 4)}
    {codes : List FaultCode} (hok : ∀ payload, answerOf i p = .ok payload → 0 ∈ statuses)
    (herror : ∀ code, answerOf i p = .error code → code ∈ codes)
    (hcodes : ∀ code ∈ FaultCode.halted :: codes, faultStatus code ∈ statuses) :
    responseStatus (responseTo i halted p) ∈ statuses := by
  cases halted with
  | true => exact hcodes .halted List.mem_cons_self
  | false =>
    cases ha : answerOf i p with
    | ok payload => simpa [responseTo, responseOf, responseStatus, ha] using hok payload ha
    | error code =>
      simpa [responseTo, responseOf, responseStatus, ha] using
        hcodes code (List.mem_cons_of_mem _ (herror code ha))

/-- The status of an instruction's response is one the table gives the instruction: by the faults its answer can be. -/
theorem responseStatus_mem_mayAnswer (i : Instr) (halted : Bool) (p : Params) :
    responseStatus (responseTo i halted p) ∈ mayAnswer i := by
  cases i with
  | irenc f =>
    exact responseStatus_responseTo_mem (statuses := [0, 3, 4, 5, 6, 12]) (fun _ _ => by decide)
      (fun _ => irencAnswer_error) (by decide)
  | rescueV1 data =>
    exact responseStatus_responseTo_mem (statuses := [0, 7, 8, 10, 11, 12]) (fun _ _ => by decide)
      (fun _ => rescueV1Answer_error) (by decide)
  | rescueV2 data =>
    exact responseStatus_responseTo_mem (statuses := [0, 7, 8, 10, 11, 12]) (fun _ _ => by decide)
      (fun _ => rescueV2Answer_error) (by decide)
  | rescueV3 data =>
    exact responseStatus_responseTo_mem (statuses := [0, 9, 10, 11, 12]) (fun _ _ => by decide)
      (fun _ => rescueV3Answer_error) (by decide)
  | initHook =>
    exact responseStatus_responseTo_mem (statuses := [0, 12]) (codes := []) (fun _ _ => by decide)
      (fun _ h => nomatch h) (by decide)
  | illegalCmd6 | illegalCmd7 =>
    exact responseStatus_responseTo_mem (statuses := [1, 12]) (codes := [.illegalCmd]) (fun _ h => nomatch h)
      (fun _ h => by cases h; decide) (by decide)
  | _ =>
    exact responseStatus_responseTo_mem (statuses := [0, 2, 3, 4, 5, 6, 12]) (fun _ _ => by decide)
      (fun _ => irdecAnswer_error) (by decide)

theorem responseStatus_lt (r : Response) : responseStatus r < 13 := by
  cases r with
  | ok payload => exact (by decide : (0 : BitVec 4) < 13)
  | fault code => cases code <;> decide

theorem responseStatus_eq_zero_iff (r : Response) : responseStatus r = 0 ↔ ∃ payload, responsePayload r = some payload := by
  cases r with
  | ok payload => simp [responseStatus, responsePayload]
  | fault code => cases code <;> simp [responseStatus, responsePayload, faultStatus]

/-- Settles O39: the codes, and the one response each instruction appends. -/
theorem statusCodesAndWhoRaisesThem : Obligations.StatusCodesAndWhoRaisesThem := by
  refine ⟨fun r => ⟨responseStatus_lt r, responseStatus_eq_zero_iff r⟩, rfl, fun i s t r h hr => ?_⟩
  obtain rfl : responseTo i s.halted s.params = r := by simpa [exec_responses h] using hr
  exact responseStatus_mem_mayAnswer i s.halted s.params

/-- Settles O43: exec is total, and its next state has the instruction's one response. -/
theorem everyInstructionAnswersOnce : Obligations.EveryInstructionAnswersOnce := by
  intro i s
  obtain ⟨t, ht⟩ := exec_total i s
  exact ⟨t, _, ht, exec_responses ht⟩

/-- Settles O36: past the gate both codes are ERR_ILLEGAL_CMD's entry, and the decoder takes any payload. -/
theorem illegalCommandsFault : Obligations.IllegalCommandsFault := by
  refine fun payload s => ⟨fun hs => ⟨?_, ?_⟩, rfl, rfl⟩
  · exact exec_of_running (by simp) hs
  · exact exec_of_running (by simp) hs

/-! ## Texts of decimal integers (R80, R81, R140) -/

/-- The model's tokens are the library's splitting of a list at a separator. -/
theorem splitAtCommas_eq_splitOn (T : List Byte) : splitAtCommas T = T.splitOn comma := by
  induction T with
  | nil => rfl
  | cons b T ih =>
    rw [splitAtCommas, List.splitOn_cons_eq_if_modifyHead, ih]
    by_cases hb : b = comma
    · simp [hb]
    · obtain ⟨t, ts, hT⟩ := List.exists_cons_of_ne_nil (List.splitOn_ne_nil comma T)
      simp [hb, hT]

theorem splitAtCommas_comma (T : List Byte) : splitAtCommas (comma :: T) = [] :: splitAtCommas T := if_pos rfl

/-- A byte that is no comma begins the first token. -/
theorem splitAtCommas_of_ne_comma {b : Byte} (hb : b ≠ comma) (T : List Byte) :
    ∃ t ts, splitAtCommas T = t :: ts ∧ splitAtCommas (b :: T) = (b :: t) :: ts := by
  obtain ⟨t, ts, hT⟩ := List.exists_cons_of_ne_nil (splitAtCommas_ne_nil T)
  exact ⟨t, ts, hT, by rw [splitAtCommas, if_neg hb, hT]⟩

theorem comma_not_mem_of_mem_splitAtCommas (T : List Byte) : ∀ t ∈ splitAtCommas T, comma ∉ t := by
  induction T with
  | nil => simp [splitAtCommas]
  | cons b T ih =>
    by_cases hb : b = comma
    · subst hb
      simpa [splitAtCommas_comma] using ih
    · obtain ⟨t, ts, hT, hbT⟩ := splitAtCommas_of_ne_comma hb T
      rw [hT, List.forall_mem_cons] at ih
      rw [hbT, List.forall_mem_cons]
      exact ⟨by simpa [eq_comm, hb] using ih.1, ih.2⟩

theorem length_splitAtCommas (T : List Byte) : (splitAtCommas T).length = T.count comma + 1 := by
  induction T with
  | nil => rfl
  | cons b T ih =>
    by_cases hb : b = comma
    · subst hb
      rw [splitAtCommas_comma, List.length_cons, ih, List.count_cons_self]
    · obtain ⟨t, ts, hT, hbT⟩ := splitAtCommas_of_ne_comma hb T
      rw [hbT, List.length_cons, List.count_cons_of_ne hb, ← ih, hT, List.length_cons]

theorem tokenWellFormed_iff (t : List Byte) :
    tokenWellFormed t = true ↔ t ≠ [] ∧ ∀ b ∈ t, 0x30 ≤ b.toNat ∧ b.toNat ≤ 0x39 := by
  simp [tokenWellFormed, isDigit]

/-- Settles O23: the tokens are the library's splitting at the comma, none of them holds a comma, and each comma begins
one more. -/
theorem tokensSplitTheTextAtCommas : Obligations.TokensSplitTheTextAtCommas := by
  refine ⟨rfl, fun T hT => ?_, tokenWellFormed_iff⟩
  rw [tokens, if_neg hT]
  refine ⟨?_, comma_not_mem_of_mem_splitAtCommas T, length_splitAtCommas T⟩
  rw [splitAtCommas_eq_splitOn]
  exact List.intercalate_splitOn comma

theorem tokenValue_eq_sum (t : List Byte) : tokenValue t =
    ((List.range t.length).map (fun k => ((t.getD k 0).toNat - 0x30) * 10 ^ (t.length - 1 - k))).sum := by
  induction t with
  | nil => rfl
  | cons b t ih =>
    rw [tokenValue, ih, List.length_cons, List.range_succ_eq_map, List.map_cons, List.sum_cons, List.map_map]
    congr 2
    refine List.map_congr_left fun k _ => ?_
    have hpower : t.length + 1 - 1 - (k + 1) = t.length - 1 - k := by omega
    simp only [Function.comp_apply, Nat.succ_eq_add_one, List.getD_cons_succ, hpower]

theorem parseToken_eq_ok_iff {W : Nat} {t : List Byte} {v : BitVec W} : parseToken W t = .ok v ↔
    tokenWellFormed t = true ∧ tokenValue t < 2 ^ W ∧ v.toNat = tokenValue t := by
  by_cases ht : GoodToken W t
  · have hvalue : (BitVec.ofNat W (tokenValue t)).toNat = tokenValue t := by
      rw [BitVec.toNat_ofNat, Nat.mod_eq_of_lt ht.2]
    rw [parseToken_of_good ht, Except.ok.injEq, BitVec.toNat_eq, hvalue]
    exact ⟨fun h => ⟨ht.1, ht.2, h.symm⟩, fun h => h.2.2.symm⟩
  · rw [parseToken_of_bad ht]
    exact ⟨fun h => (nomatch h), fun h => absurd ⟨h.1, h.2.1⟩ ht⟩

theorem parseToken_eq_error_iff {W : Nat} {t : List Byte} {code : FaultCode} : parseToken W t = .error code ↔
    code = .parse ∧ (tokenWellFormed t = false ∨ 2 ^ W ≤ tokenValue t) := by
  have hbad : ¬ GoodToken W t ↔ tokenWellFormed t = false ∨ 2 ^ W ≤ tokenValue t := by
    rw [not_and_or, Bool.not_eq_true, not_lt]
  rw [← hbad]
  by_cases ht : GoodToken W t
  · simp [parseToken_of_good ht, ht]
  · simp [parseToken_of_bad ht, ht, eq_comm]

/-- Settles O24: the sum digit by digit, and the token check as one condition in both directions. -/
theorem tokenValueIsTheExactDecimalSum : Obligations.TokenValueIsTheExactDecimalSum :=
  ⟨tokenValue_eq_sum, fun _ _ _ => parseToken_eq_ok_iff, fun _ _ _ => parseToken_eq_error_iff⟩

/-- The overflow test of R140 is exact: it stops exactly the digits that would leave `W` bits. -/
theorem accumulateDigit_eq {W acc digit : Nat} (hdigit : digit < 2 ^ W) : accumulateDigit W acc digit =
    if 10 * acc + digit < 2 ^ W then some (10 * acc + digit) else none := by
  unfold accumulateDigit
  have htest : acc > (2 ^ W - 1 - digit) / 10 ↔ ¬ 10 * acc + digit < 2 ^ W := by
    generalize 2 ^ W = bound at *
    omega
  by_cases h : 10 * acc + digit < 2 ^ W
  · rw [if_pos h, if_neg (by simpa [htest] using h)]
  · rw [if_neg h, if_pos (htest.mpr h)]

/-- Accumulation from any start: the start shifted past the digits that follow, plus their value, as long as it fits. -/
theorem accumulateToken_eq {W : Nat} (hW : 4 ≤ W) {t : List Byte} (hdigits : ∀ b ∈ t, 0x30 ≤ b.toNat ∧ b.toNat ≤ 0x39)
    {acc : Nat} (hacc : acc < 2 ^ W) : accumulateToken W acc t =
      if acc * 10 ^ t.length + tokenValue t < 2 ^ W then some (acc * 10 ^ t.length + tokenValue t) else none := by
  induction t generalizing acc with
  | nil => simp [accumulateToken, tokenValue, hacc]
  | cons b t ih =>
    obtain ⟨⟨-, hb⟩, ht⟩ := List.forall_mem_cons.mp hdigits
    have hpow : 2 ^ 4 ≤ 2 ^ W := Nat.pow_le_pow_right (by decide) hW
    have hshift : acc * 10 ^ (b :: t).length + tokenValue (b :: t) =
        (10 * acc + (b.toNat - 0x30)) * 10 ^ t.length + tokenValue t := by
      rw [List.length_cons, tokenValue]
      ring
    rw [accumulateToken, accumulateDigit_eq (by omega), hshift]
    by_cases h : 10 * acc + (b.toNat - 0x30) < 2 ^ W
    · rw [if_pos h]
      exact ih ht h
    · have hgrows : 10 * acc + (b.toNat - 0x30) ≤ (10 * acc + (b.toNat - 0x30)) * 10 ^ t.length :=
        Nat.le_mul_of_pos_right _ (by positivity)
      rw [if_neg h, if_neg (by omega)]

/-- Settles O25: accumulation from 0 over the digits of a well-formed token. -/
theorem fixedWidthAccumulationFaultsExactlyOnOverflow : Obligations.FixedWidthAccumulationFaultsExactlyOnOverflow := by
  intro W t hW ht
  obtain ⟨-, hdigits⟩ := (tokenWellFormed_iff t).mp ht
  simpa using accumulateToken_eq hW hdigits (Nat.two_pow_pos W)

end Sys2Proof.Machine

/-! # The IR codec: the round trip, its first faults, and the configurations it runs in -/

namespace Sys2Proof.Machine

/-! ## Both directions as the range tests on the fields (R101, R106) -/

theorem irencAnswer_eq_map (p : Params) (f : IrFields) :
    irencAnswer p f = (checkFields p f).map fun f => .word (assembleFields p f) := by
  unfold irencAnswer
  cases checkFields p f <;> rfl

theorem irdecAnswer_of_reserved {p : Params} {w : Nat} (h : reservedBits p w ≠ 0) :
    irdecAnswer p w = .error .irReserved := if_pos h

theorem irdecAnswer_of_no_reserved {p : Params} {w : Nat} (h : reservedBits p w = 0) :
    irdecAnswer p w = (checkFields p (extractFields p w)).map .fields := by
  rw [irdecAnswer, if_neg (not_not.mpr h)]
  cases checkFields p (extractFields p w) <;> rfl

/-- IRDEC of an assembled word tests and answers the fields it was assembled from (R107). -/
theorem irdecAnswer_assembleFields {p : Params} (hlayout : layoutOk p = true) {f : IrFields} (hfits : f.fits p = true) :
    irdecAnswer p (assembleFields p f) = (checkFields p f).map .fields := by
  rw [irdecAnswer_of_no_reserved (reservedBits_assembleFields hlayout hfits), extractFields_assembleFields hlayout hfits]

theorem except_map_eq_error_iff {α β : Type} {x : Except FaultCode α} {g : α → β} {code : FaultCode} :
    x.map g = .error code ↔ x = .error code := by
  cases x <;> simp [Except.map]

theorem irencAnswer_eq_error_iff {p : Params} {f : IrFields} {code : FaultCode} :
    irencAnswer p f = .error code ↔ checkFields p f = .error code := by
  rw [irencAnswer_eq_map, except_map_eq_error_iff]

/-! ## The round trip (R107) -/

section RoundTrip

variable {p : Params} (hlayout : layoutOk p = true)

include hlayout

theorem irdecAnswer_of_irencAnswer {f : IrFields} {w : Nat} (hfits : f.fits p = true)
    (h : irencAnswer p f = .ok (.word w)) : irdecAnswer p w = .ok (.fields f) := by
  obtain ⟨hlegal, hword⟩ := irencAnswer_eq_ok_iff.mp h
  cases hword
  rw [irdecAnswer_assembleFields hlayout hfits, checkFields_eq_ok_iff.mpr ⟨hlegal, rfl⟩]
  rfl

/-- A word of the register that IRDEC accepts has no bit outside its fields, so assembly gives it back. -/
theorem irencAnswer_of_irdecAnswer {w : Nat} {f : IrFields} (hw : w < 2 ^ p.irWidth)
    (h : irdecAnswer p w = .ok (.fields f)) : irencAnswer p f = .ok (.word w) := by
  obtain ⟨hres, hlegal, rfl⟩ := irdecAnswer_eq_ok_iff.mp h
  rw [irencAnswer_eq_ok_iff, (reservedBits_eq_zero_iff hlayout hw).mp hres]
  exact ⟨hlegal, rfl⟩

theorem irdecAnswer_injective {v w : Nat} {f : IrFields} (hv : v < 2 ^ p.irWidth) (hw : w < 2 ^ p.irWidth)
    (hvf : irdecAnswer p v = .ok (.fields f)) (hwf : irdecAnswer p w = .ok (.fields f)) : v = w := by
  have henc := irencAnswer_of_irdecAnswer hlayout hv hvf
  rw [irencAnswer_of_irdecAnswer hlayout hw hwf] at henc
  cases henc
  rfl

/-- The words IRENC answers are the words of the register that IRDEC accepts. -/
theorem exists_irencAnswer_iff {w : Nat} : (∃ f, f.fits p = true ∧ irencAnswer p f = .ok (.word w)) ↔
    w < 2 ^ p.irWidth ∧ ∃ f, irdecAnswer p w = .ok (.fields f) := by
  constructor
  · rintro ⟨f, hfits, h⟩
    refine ⟨?_, f, irdecAnswer_of_irencAnswer hlayout hfits h⟩
    obtain ⟨-, hword⟩ := irencAnswer_eq_ok_iff.mp h
    cases hword
    exact assembleFields_lt hlayout hfits
  · rintro ⟨hw, f, h⟩
    obtain ⟨-, -, rfl⟩ := irdecAnswer_eq_ok_iff.mp h
    exact ⟨_, extractFields_fits p w, irencAnswer_of_irdecAnswer hlayout hw h⟩

/-- IRENC reports the fault IRDEC reports on the assembled word, and on every word with the same fields and no reserved
bit. -/
theorem irencAnswer_error_iff_exists_word {f : IrFields} (hfits : f.fits p = true) {code : FaultCode} :
    irencAnswer p f = .error code ↔
      ∃ w, w < 2 ^ p.irWidth ∧ extractFields p w = f ∧ reservedBits p w = 0 ∧ irdecAnswer p w = .error code := by
  rw [irencAnswer_eq_error_iff]
  constructor
  · intro h
    refine ⟨assembleFields p f, assembleFields_lt hlayout hfits, extractFields_assembleFields hlayout hfits,
      reservedBits_assembleFields hlayout hfits, ?_⟩
    rw [irdecAnswer_assembleFields hlayout hfits, h]
    rfl
  · rintro ⟨w, -, rfl, hres, h⟩
    rwa [irdecAnswer_of_no_reserved hres, except_map_eq_error_iff] at h

end RoundTrip

/-- Settles O17: assembly and extraction are inverse on words without reserved bits, and both directions run the same
range tests on the same fields. -/
theorem irCodecRoundTrips : Obligations.IrCodecRoundTrips := fun _ hlayout =>
  ⟨fun _ _ => irdecAnswer_of_irencAnswer hlayout, fun _ _ => irencAnswer_of_irdecAnswer hlayout,
    fun _ _ _ => irdecAnswer_injective hlayout, fun _ => exists_irencAnswer_iff hlayout,
    fun _ _ hfits => irencAnswer_error_iff_exists_word hlayout hfits⟩

/-! ## Which configurations and events a step runs on (R108, R197, R200) -/

/-- A request is served to a next state exactly when the request format admits it: no instruction stops. -/
theorem exists_serveRequest_next_iff (r : Request) (s : State) :
    (∃ t, serveRequest r s = .next t) ↔ r.fits s.params = true := by
  constructor
  · rintro ⟨t, h⟩
    obtain ⟨i, hdecode, -⟩ := serveRequest_next h
    exact (decoderAcceptsExactlyTheRequestFormat s.params r).1.mp ⟨i, hdecode⟩
  · intro hfits
    obtain ⟨i, hdecode⟩ := decode_of_fits hfits
    rw [serveRequest_of_decode hdecode]
    exact exec_total i s

theorem exists_serveAbandoned_next_iff (r : Request) (s : State) :
    (∃ t, serveAbandoned r s = .next t) ↔ r.fits s.params = true := by
  rw [← exists_serveRequest_next_iff, serveAbandoned]
  cases serveRequest r s <;> simp

/-- Settles O4: without the layout assertions every step is refused; with them the oldest event decides. -/
theorem stepStopsOnlyOnExcludedInput : Obligations.StepStopsOnlyOnExcludedInput := by
  intro s
  by_cases hlayout : layoutOk s.params = true
  · cases hport : s.port with
    | nil => simp [step_idle hlayout hport, hlayout]
    | cons event rest =>
      rw [step_event hlayout hport]
      cases event with
      | reset => simp [serve, hlayout]
      | request r => simpa [serve, hlayout] using exists_serveRequest_next_iff r { s with port := rest }
      | abandoned r => simpa [serve, hlayout] using exists_serveAbandoned_next_iff r { s with port := rest }
  · simp [step_of_layoutDefect hlayout, hlayout]

/-- A list of ranges without overlap: no bit lies in two of them. -/
theorem pairwise_of_noOverlap {l : List BitRange} (h : noOverlap l = true) :
    l.Pairwise fun a b => ∀ k, ¬ (a.lo ≤ k ∧ k < a.hi ∧ b.lo ≤ k ∧ k < b.hi) := by
  induction l with
  | nil => exact .nil
  | cons a l ih =>
    simp only [noOverlap, Bool.and_eq_true, List.all_eq_true] at h
    obtain ⟨hfirst, hrest⟩ := h
    refine .cons (fun b hb k => ?_) (ih hrest)
    have hapart := (rangesDisjoint_iff a b).mp (hfirst b hb)
    omega

theorem widths_le_of_layoutOk {p : Params} (h : layoutOk p = true) :
    ((declaredRanges p).map BitRange.width).sum ≤ p.irWidth := by
  simp only [layoutOk, Bool.and_eq_true, decide_eq_true_eq] at h
  exact h.2

theorem layoutOk_of_default_depths {p : Params} (hwidth : 24 ≤ p.irWidth) (hctx : p.ctxDepthRange = ⟨15, 20⟩)
    (hloop : p.loopDepthRange = ⟨20, 24⟩) : layoutOk p = true := by
  rw [layoutOk_iff, hctx, hloop]
  exact ⟨hwidth, by decide, le_trans (by decide) hwidth, by decide, hwidth, by decide, by decide, by decide⟩

theorem layoutOk_of_defaultLayout {p : Params} (hp : DefaultLayout p) : layoutOk p = true := by
  obtain ⟨hwidth, hctx, hloop⟩ := hp
  exact layoutOk_of_default_depths (by omega) hctx hloop

/-- Settles O8: the constants by evaluation, the declared ranges by the layout assertions. -/
theorem layoutAssertionsHold : Obligations.LayoutAssertionsHold := by
  refine ⟨rfl, rfl, rfl, rfl, rfl, rfl, (Nat.clog_pow 2 3 (by decide)).symm, (Nat.clog_pow 2 5 (by decide)).symm,
    (Nat.clog_pow 2 2 (by decide)).symm, rfl, rfl, rfl, fun p hlayout => ⟨?_, ?_⟩,
    fun p => layoutOk_of_default_depths⟩
  · exact pairwise_of_noOverlap (noOverlap_of_layoutOk hlayout)
  · exact widths_le_of_layoutOk hlayout

/-! ## The reserved test (R102) -/

theorem irdecAnswer_eq_reserved_iff {p : Params} {w : Nat} :
    irdecAnswer p w = .error .irReserved ↔ reservedBits p w ≠ 0 := by
  refine ⟨fun h => ?_, irdecAnswer_of_reserved⟩
  obtain ⟨-, hres⟩ | hcheck := irdecAnswer_error_cases h
  · exact hres
  · exact absurd (checkFields_error hcheck) (by decide)

/-- Settles O11: with the default depth ranges the reserved bits are those from 24 up, in a register of any width. -/
theorem irdecReservedTestAtEveryWidth : Obligations.IrdecReservedTestAtEveryWidth := by
  intro w s hs hwidth hctx hloop hw
  have hreserved : irdecAnswer s.params w = .error .irReserved ↔ w / 2 ^ 24 ≠ 0 := by
    rw [irdecAnswer_eq_reserved_iff, ne_eq, reservedBits_default hwidth hctx hloop hw]
  refine ⟨fun hhigh => ?_, hreserved, fun h24 => ?_⟩
  · rw [exec_of_running (by simp) hs, answerOf, hreserved.mpr hhigh]
    rfl
  · rw [ne_eq, hreserved, not_not]
    exact Nat.div_eq_of_lt (h24 ▸ hw)

/-! ## The range tests (R103, R104, R105) -/

/-- The opcode test never holds: each opcode field is exactly as wide as its count of operations needs (R104). -/
theorem not_opcodeOutOfRange (f : IrFields) : ¬ (f.cf.toNat ≥ 8 ∨ f.ld.toNat ≥ 32 ∨ f.hd.toNat ≥ 4) := by
  have := f.cf.isLt
  have := f.ld.isLt
  have := f.hd.isLt
  omega

/-- The range tests without the one that never holds. -/
theorem checkFields_eq (p : Params) (f : IrFields) : checkFields p f =
    if f.s.toNat > p.spongeSelMax.val then .error .irSpongeSel
    else if f.ctx > 16 then .error .irCtxDepth
    else if f.loop > 8 then .error .irLoopDepth
    else .ok f :=
  if_neg (not_opcodeOutOfRange f)

theorem checkFields_ne_opcodeRange (p : Params) (f : IrFields) : checkFields p f ≠ .error .irOpcodeRange := by
  rw [checkFields_eq]
  split_ifs <;> simp

theorem irdecAnswer_ne_opcodeRange (p : Params) (w : Nat) : irdecAnswer p w ≠ .error .irOpcodeRange := by
  intro h
  obtain ⟨hcode, -⟩ | hcheck := irdecAnswer_error_cases h
  · cases hcode
  · exact checkFields_ne_opcodeRange _ _ hcheck

/-- Settles O13: the range tests, which both directions share, never report it. -/
theorem opcodeRangeFaultIsUnreachable : Obligations.OpcodeRangeFaultIsUnreachable := fun p w f =>
  ⟨irdecAnswer_ne_opcodeRange p w, irencAnswer_eq_error_iff.not.mpr (checkFields_ne_opcodeRange p f)⟩

theorem checkFields_eq_spongeSel_iff {p : Params} {f : IrFields} :
    checkFields p f = .error .irSpongeSel ↔ f.s.toNat > p.spongeSelMax.val := by
  rw [checkFields_eq]
  split_ifs with hsel <;> simp [hsel]

theorem irdecAnswer_eq_spongeSel_iff {p : Params} {w : Nat} : irdecAnswer p w = .error .irSpongeSel ↔
    reservedBits p w = 0 ∧ (extractFields p w).s.toNat > p.spongeSelMax.val := by
  rw [← checkFields_eq_spongeSel_iff]
  by_cases hres : reservedBits p w = 0
  · rw [irdecAnswer_of_no_reserved hres, except_map_eq_error_iff]
    simp [hres]
  · simp [irdecAnswer_of_reserved hres, hres]

theorem extractFields_default_s {p : Params} (hp : DefaultLayout p) (w : Nat) :
    (extractFields p w).s.toNat = w / 2 % 16 := by
  simp [extractFields_default hp]

/-- Settles O14: the selector is the extracted field, tested against the setting alone. -/
theorem spongeSelectorBoundedOnlyBySetting : Obligations.SpongeSelectorBoundedOnlyBySetting := by
  intro p w hp hw
  obtain ⟨hwidth, hctx, hloop⟩ := id hp
  have hsel : irdecAnswer p w = .error .irSpongeSel ↔ w / 16777216 = 0 ∧ w / 2 % 16 > p.spongeSelMax.val := by
    rw [irdecAnswer_eq_spongeSel_iff, extractFields_default_s hp,
      reservedBits_default (by omega) hctx hloop (by rwa [hwidth])]
    rfl
  refine ⟨fun f h => ?_, hsel, fun hmax => ?_⟩
  · obtain ⟨-, -, rfl⟩ := irdecAnswer_eq_ok_iff.mp h
    exact extractFields_default_s hp w
  · rw [ne_eq, hsel, hmax, not_and, not_lt]
    exact fun _ => Nat.le_of_lt_succ (Nat.mod_lt _ (by decide))

/-- The range tests on fields that are zero but for the depths (R103). -/
theorem checkFields_depths (p : Params) (c l : Nat) : checkFields p ⟨0, 0, 0, 0, 0, c, l⟩ =
    if 17 ≤ c then .error .irCtxDepth else if 9 ≤ l then .error .irLoopDepth else .ok ⟨0, 0, 0, 0, 0, c, l⟩ := by
  rw [checkFields_eq]
  exact if_neg (Nat.not_lt_zero _)

theorem assembleFields_default {p : Params} (hp : DefaultLayout p) (f : IrFields) : assembleFields p f =
    f.n.toNat + 2 * f.s.toNat + 32 * f.cf.toNat + 256 * f.ld.toNat + 8192 * f.hd.toNat + 32768 * f.ctx
      + 1048576 * f.loop := by
  obtain ⟨-, hctx, hloop⟩ := hp
  rw [assembleFields_eq_sum, hctx, hloop]
  rfl

/-- Settles O12: the word is the assembly of the fields, so both directions run the two depth tests on them. -/
theorem depthBoundsAreInclusive : Obligations.DepthBoundsAreInclusive := by
  intro p c l hp hc hl
  have hfits : IrFields.fits p ⟨0, 0, 0, 0, 0, c, l⟩ = true := by
    obtain ⟨-, hctx, hloop⟩ := hp
    simp [IrFields.fits, hctx, hloop, BitRange.width, hc, hl]
  have hword : assembleFields p ⟨0, 0, 0, 0, 0, c, l⟩ = 32768 * c + 1048576 * l := by
    simp [assembleFields_default hp]
  constructor
  · rw [← hword, irdecAnswer_assembleFields (layoutOk_of_defaultLayout hp) hfits, checkFields_depths]
    split_ifs <;> rfl
  · rw [← hword, irencAnswer_eq_map, checkFields_depths]
    split_ifs <;> rfl

/-! ## The next state past the gate (R101, R106) -/

/-- The end of an operation that runs the range tests: the first that fails is raised, and then nothing is answered. -/
theorem finish_map_checkFields (p : Params) (f : IrFields) (g : IrFields → OkPayload) (s : State) :
    finish ((checkFields p f).map g) s =
      if f.cf.toNat ≥ 8 ∨ f.ld.toNat ≥ 32 ∨ f.hd.toNat ≥ 4 then raise .irOpcodeRange s
      else if f.s.toNat > p.spongeSelMax.val then raise .irSpongeSel s
      else if f.ctx > 16 then raise .irCtxDepth s
      else if f.loop > 8 then raise .irLoopDepth s
      else respond (.ok (g f)) s := by
  rw [checkFields_eq, if_neg (not_opcodeOutOfRange f)]
  split_ifs <;> rfl

/-- Settles O16: the range tests in their order, then the assembled word. -/
theorem irencAssemblesOrReportsFirstFault : Obligations.IrencAssemblesOrReportsFirstFault := by
  intro f s hs hp
  rw [exec_of_running (by simp) hs, answerOf, irencAnswer_eq_map, finish_map_checkFields, assembleFields_default hp]

/-- Settles O10: the reserved test, then the range tests on the fields of the word in their order. -/
theorem irdecDecodesOrReportsFirstFault : Obligations.IrdecDecodesOrReportsFirstFault := by
  intro w s hs hp hw
  obtain ⟨hwidth, hctx, hloop⟩ := id hp
  have hreserved : reservedBits s.params w = 0 ↔ w / 16777216 = 0 :=
    reservedBits_default (by omega) hctx hloop (by rwa [hwidth])
  rw [exec_of_running (by simp) hs, answerOf]
  by_cases hres : w / 16777216 = 0
  · rw [if_neg (not_not.mpr hres), irdecAnswer_of_no_reserved (hreserved.mpr hres), finish_map_checkFields,
      extractFields_default hp]
    simp
  · rw [if_pos hres, irdecAnswer_of_reserved (hreserved.not.mpr hres), finish]

/-! ## The faults a configuration leaves possible (R104, R105, R132, R180) -/

/-- Whether an operation past the halt gate can answer a fault in a configuration: the fault of the opcode test and the
gate's own never, those of the selector and of the payload's length only where the configuration bounds them. -/
def FaultPossible (p : Params) : FaultCode → Prop
  | .irOpcodeRange => False
  | .irSpongeSel => p.spongeSelMax.val < 15
  | .tooLong => p.maxInputBytes ≠ none
  | .halted => False
  | _ => True

section FaultPossible

variable {p : Params} {code : FaultCode}

theorem checkFields_faultPossible {f : IrFields} (h : checkFields p f = .error code) : FaultPossible p code := by
  rw [checkFields_eq] at h
  split_ifs at h with hsel <;> cases h
  · exact lt_of_lt_of_le hsel (Nat.le_of_lt_succ f.s.isLt)
  · trivial
  · trivial

theorem irdecAnswer_faultPossible {w : Nat} (h : irdecAnswer p w = .error code) : FaultPossible p code := by
  obtain ⟨rfl, -⟩ | hcheck := irdecAnswer_error_cases h
  · trivial
  · exact checkFields_faultPossible hcheck

/-- A text is too long only under a bound (R132). -/
theorem maxInputBytes_ne_none_of_tooLong {T : List Byte} (h : tooLong p T = true) : p.maxInputBytes ≠ none := by
  intro hnone
  simp [tooLong, hnone] at h

theorem parseText_faultPossible {arity W : Nat} {T : List Byte} (h : parseText p arity W T = .error code) :
    FaultPossible p code := by
  rw [parseText_eq] at h
  split_ifs at h with hlong <;> cases h
  · exact maxInputBytes_ne_none_of_tooLong hlong
  · trivial
  · trivial

theorem rescueV1Answer_faultPossible {FE : Type} {c : Collaborators FE} {T : List Byte}
    (h : rescueV1Answer c p T = .error code) : FaultPossible p code := by
  unfold rescueV1Answer at h
  split at h
  · next hparse =>
    cases h
    exact parseText_faultPossible hparse
  · dsimp only at h
    split_ifs at h
    cases h
    trivial

theorem rescueV2Answer_faultPossible {FE : Type} {c : Collaborators FE} {T : List Byte}
    (h : rescueV2Answer c p T = .error code) : FaultPossible p code := by
  unfold rescueV2Answer at h
  split at h
  · next hparse =>
    cases h
    exact parseText_faultPossible hparse
  · dsimp only at h
    split_ifs at h
    cases h
    trivial

theorem rescueV3Answer_faultPossible {FE : Type} {c : Collaborators FE} {T : List Byte}
    (h : rescueV3Answer c p T = .error code) : FaultPossible p code := by
  unfold rescueV3Answer at h
  dsimp only at h
  split_ifs at h with hlong <;> cases h
  · exact maxInputBytes_ne_none_of_tooLong hlong
  · trivial
  · trivial

theorem answerOf_faultPossible {i : Instr} (h : answerOf i p = .error code) : FaultPossible p code := by
  cases i with
  | irenc f => exact checkFields_faultPossible (irencAnswer_eq_error_iff.mp h)
  | rescueV1 data => exact rescueV1Answer_faultPossible h
  | rescueV2 data => exact rescueV2Answer_faultPossible h
  | rescueV3 data => exact rescueV3Answer_faultPossible h
  | initHook => cases h
  | illegalCmd6 | illegalCmd7 => cases h; trivial
  | _ => exact irdecAnswer_faultPossible h

end FaultPossible

theorem faultStatus_of_possible_at_defaults {code : FaultCode} (h : FaultPossible Config.defaults code) :
    faultStatus code ∉ ([3, 4, 11, 12] : List (BitVec 4)) := by
  cases code with
  | irOpcodeRange | halted => exact h.elim
  | irSpongeSel => exact absurd h (lt_irrefl 15)
  | tooLong => exact absurd rfl h
  | _ => decide

/-- Settles O40: the defaults set no bound and no abort, so the faults of the four statuses are not possible and HALTED
stays 0. -/
theorem unreachableStatusesAtTheDefaults : Obligations.UnreachableStatusesAtTheDefaults := by
  intro i s hp hs
  obtain ⟨t, ht⟩ := exec_total i s
  have habort : s.params.abortOnDefect = false := by rw [hp]; rfl
  refine ⟨t, _, ht, (exec_halted_of_not_abort ht habort).trans hs, exec_responses ht, ?_⟩
  rw [hs, hp, responseTo, if_neg (by decide)]
  cases ha : answerOf i Config.defaults with
  | ok payload => exact (by decide : (0 : BitVec 4) ∉ ([3, 4, 11, 12] : List (BitVec 4)))
  | error code => exact faultStatus_of_possible_at_defaults (answerOf_faultPossible ha)

end Sys2Proof.Machine

/-! # The hash adapter: valid text, and what the three operations answer -/

namespace Sys2Proof.Machine

/-! ## Well-formed UTF-8 (R129) -/

/-- A byte within an inclusive range. -/
abbrev InByteRange (b : Byte) (r : Nat × Nat) : Prop := r.1 ≤ b.toNat ∧ b.toNat ≤ r.2

/-- A sequence that has one of the nine shapes. -/
def Utf8Sequence (q : List Byte) : Prop := ∃ shape ∈ utf8Shapes, List.Forall₂ InByteRange q shape

theorem dropShape_cons (r : Nat × Nat) (shape : List (Nat × Nat)) (b : Byte) (l : List Byte) :
    dropShape (r :: shape) (b :: l) = if InByteRange b r then dropShape shape l else none := rfl

/-- Dropping a shape takes off exactly a sequence of that shape. -/
theorem dropShape_eq_some_iff {shape : List (Nat × Nat)} {l rest : List Byte} :
    dropShape shape l = some rest ↔ ∃ q, List.Forall₂ InByteRange q shape ∧ l = q ++ rest := by
  induction shape generalizing l with
  | nil => simp [dropShape]
  | cons r shape ih =>
    cases l with
    | nil => simp [dropShape, List.forall₂_cons_right_iff]
    | cons b l =>
      by_cases hb : InByteRange b r
      · rw [dropShape_cons, if_pos hb, ih]
        constructor
        · rintro ⟨q, hq, rfl⟩
          exact ⟨b :: q, .cons hb hq, rfl⟩
        · rintro ⟨_, hq, hl⟩
          cases hq with
          | cons _ hq =>
            cases hl
            exact ⟨_, hq, rfl⟩
      · rw [dropShape_cons, if_neg hb]
        refine ⟨fun h => (nomatch h), ?_⟩
        rintro ⟨_, hq, hl⟩
        cases hq with
        | cons hb' _ =>
          cases hl
          exact absurd hb' hb

theorem utf8Shapes_ne_nil : ∀ shape ∈ utf8Shapes, shape ≠ [] := by decide

theorem Utf8Sequence.ne_nil {q : List Byte} (h : Utf8Sequence q) : q ≠ [] := by
  rintro rfl
  obtain ⟨shape, hshape, hq⟩ := h
  exact utf8Shapes_ne_nil shape hshape (List.forall₂_nil_left_iff.mp hq)

/-- The first bytes of two different shapes have disjoint ranges. -/
theorem utf8Shapes_heads_disjoint : ∀ x ∈ utf8Shapes, ∀ y ∈ utf8Shapes,
    x = y ∨ x.headI.2 < y.headI.1 ∨ y.headI.2 < x.headI.1 := by decide

/-- The first byte of a list that begins with a sequence of a shape is in the first range of the shape. -/
theorem inByteRange_headI {shape : List (Nat × Nat)} (hshape : shape ∈ utf8Shapes) {b : Byte} {l rest : List Byte}
    (h : dropShape shape (b :: l) = some rest) : InByteRange b shape.headI := by
  cases shape with
  | nil => exact absurd rfl (utf8Shapes_ne_nil _ hshape)
  | cons r shape =>
    rw [dropShape_cons] at h
    split_ifs at h with hb
    exact hb

/-- A list begins with sequences of at most one shape. -/
theorem shape_unique {x y : List (Nat × Nat)} (hx : x ∈ utf8Shapes) (hy : y ∈ utf8Shapes) {b : Byte}
    {l r t : List Byte} (hr : dropShape x (b :: l) = some r) (ht : dropShape y (b :: l) = some t) : x = y := by
  obtain ⟨hxlo, hxhi⟩ := inByteRange_headI hx hr
  obtain ⟨hylo, hyhi⟩ := inByteRange_headI hy ht
  obtain hxy | hlt | hlt := utf8Shapes_heads_disjoint x hx y hy
  · exact hxy
  · omega
  · omega

/-- The search over the nine shapes takes off exactly one sequence. -/
theorem findSome_dropShape_eq_some_iff {b : Byte} {l rest : List Byte} :
    utf8Shapes.findSome? (fun shape => dropShape shape (b :: l)) = some rest ↔
      ∃ q, Utf8Sequence q ∧ b :: l = q ++ rest := by
  constructor
  · intro h
    obtain ⟨shape, hshape, hdrop⟩ := List.exists_of_findSome?_eq_some h
    obtain ⟨q, hq, hl⟩ := dropShape_eq_some_iff.mp hdrop
    exact ⟨q, ⟨shape, hshape, hq⟩, hl⟩
  · rintro ⟨q, ⟨shape, hshape, hq⟩, hl⟩
    have hdrop := dropShape_eq_some_iff.mpr ⟨q, hq, hl⟩
    cases hfind : utf8Shapes.findSome? (fun shape => dropShape shape (b :: l)) with
    | none => cases hdrop.symm.trans (List.findSome?_eq_none_iff.mp hfind shape hshape)
    | some found =>
      obtain ⟨shape', hshape', hdrop'⟩ := List.exists_of_findSome?_eq_some hfind
      rw [← hdrop, ← hdrop', shape_unique hshape hshape' hdrop hdrop']

/-- What the check accepts is a concatenation of sequences. -/
theorem exists_flatten_of_utf8Within {fuel : Nat} {l : List Byte} (h : utf8Within fuel l = true) :
    ∃ seqs : List (List Byte), l = seqs.flatten ∧ ∀ q ∈ seqs, Utf8Sequence q := by
  induction fuel generalizing l with
  | zero =>
    cases l with
    | nil => exact ⟨[], rfl, List.forall_mem_nil _⟩
    | cons b l => cases h
  | succ fuel ih =>
    cases l with
    | nil => exact ⟨[], rfl, List.forall_mem_nil _⟩
    | cons b l =>
      rw [utf8Within] at h
      split at h
      · cases h
      · next rest hfind =>
        obtain ⟨q, hq, hl⟩ := findSome_dropShape_eq_some_iff.mp hfind
        obtain ⟨seqs, rfl, hseqs⟩ := ih h
        exact ⟨q :: seqs, hl, List.forall_mem_cons.mpr ⟨hq, hseqs⟩⟩

/-- A concatenation of sequences passes the check with fuel for each of its bytes: every sequence has one at least. -/
theorem utf8Within_flatten {fuel : Nat} {seqs : List (List Byte)} (hseqs : ∀ q ∈ seqs, Utf8Sequence q)
    (hfuel : seqs.flatten.length ≤ fuel) : utf8Within fuel seqs.flatten = true := by
  induction seqs generalizing fuel with
  | nil => cases fuel <;> rfl
  | cons q seqs ih =>
    obtain ⟨hq, hrest⟩ := List.forall_mem_cons.mp hseqs
    obtain ⟨b, l, rfl⟩ := List.exists_cons_of_ne_nil hq.ne_nil
    cases fuel with
    | zero => cases hfuel
    | succ fuel =>
      rw [List.flatten_cons, List.cons_append] at hfuel ⊢
      have hlength : seqs.flatten.length ≤ fuel := by
        rw [List.length_cons, List.length_append] at hfuel
        omega
      rw [utf8Within, findSome_dropShape_eq_some_iff.mpr ⟨b :: l, hq, List.cons_append.symm⟩]
      exact ih hrest hlength

/-- Settles O27: the check takes one sequence after another, and the first byte of a list decides its
shape. -/
theorem utf8IsConcatenationOfTheNineShapes : Obligations.Utf8IsConcatenationOfTheNineShapes := by
  refine fun l => ⟨exists_flatten_of_utf8Within, ?_⟩
  rintro ⟨seqs, rfl, hseqs⟩
  exact utf8Within_flatten hseqs le_rfl

/-! ## The text operations RESCUE_V1 and RESCUE_V2 (R120, R124, R126) -/

/-- A text operation: the text stages, one call of a hash on the values, the size check (R128), the answer. -/
def textOperation {β : Type} (p : Params) (arity W : Nat) (hash : List (BitVec W) → List β) (size : Nat)
    (payload : List β → OkPayload) (T : List Byte) : Except FaultCode OkPayload :=
  match parseText p arity W T with
  | .error code => .error code
  | .ok v => if (hash v).length = size then .ok (payload (hash v)) else .error .internal

theorem rescueV1Answer_eq_textOperation {FE : Type} (c : Collaborators FE) (p : Params) (T : List Byte) :
    rescueV1Answer c p T = textOperation p 4 128 (fun v => c.hBytes (hashBuffer v)) 32 .bytes T := by
  change _ = textOperation p Config.v1Arity Config.v1TokenBits _ Config.digestBytes _ T
  unfold rescueV1Answer textOperation
  cases parseText p Config.v1Arity Config.v1TokenBits T <;> rfl

theorem rescueV2Answer_eq_textOperation {FE : Type} (c : Collaborators FE) (p : Params) (T : List Byte) :
    rescueV2Answer c p T = textOperation p 8 64 (fun v => c.hSponge (v.map c.feFromU64)) 4
      (fun d => .integers (d.map c.feToU64)) T := by
  change _ = textOperation p Config.v2Arity Config.v2TokenBits _ Config.v2DigestElems _ T
  unfold rescueV2Answer textOperation
  cases parseText p Config.v2Arity Config.v2TokenBits T <;> rfl

section TextOperation

variable {β : Type} {p : Params} {arity W : Nat} {hash : List (BitVec W) → List β} {size : Nat}
  {payload : List β → OkPayload} {T : List Byte}

theorem textOperation_of_fault {code : FaultCode} (h : parseText p arity W T = .error code) :
    textOperation p arity W hash size payload T = .error code := by
  rw [textOperation, h]

theorem textOperation_of_values {v : List (BitVec W)} (h : parseText p arity W T = .ok v) :
    textOperation p arity W hash size payload T =
      if (hash v).length = size then .ok (payload (hash v)) else .error .internal := by
  rw [textOperation, h]

theorem textOperation_of_wrong_size {v : List (BitVec W)} (h : parseText p arity W T = .ok v)
    (hsize : (hash v).length ≠ size) : textOperation p arity W hash size payload T = .error .internal := by
  rw [textOperation_of_values h, if_neg hsize]

/-- An OK answer is the whole digest of the values, of the right size (R128). -/
theorem textOperation_ok {a : OkPayload} (h : textOperation p arity W hash size payload T = .ok a) :
    ∃ v, parseText p arity W T = .ok v ∧ a = payload (hash v) ∧ (hash v).length = size := by
  cases hparse : parseText p arity W T with
  | error code =>
    rw [textOperation_of_fault hparse] at h
    cases h
  | ok v =>
    rw [textOperation_of_values hparse] at h
    split_ifs at h with hsize
    cases h
    exact ⟨v, rfl, rfl, hsize⟩

/-- A text operation sees no more of its text than the values. -/
theorem textOperation_congr {U : List Byte} (h : parseText p arity W T = parseText p arity W U) :
    textOperation p arity W hash size payload T = textOperation p arity W hash size payload U := by
  rw [textOperation, textOperation, h]

/-- A text operation's faults are those of the text stages, and ERR_INTERNAL. -/
theorem textOperation_error_cases {code : FaultCode} (h : textOperation p arity W hash size payload T = .error code) :
    parseText p arity W T = .error code ∨ code = .internal := by
  cases hparse : parseText p arity W T with
  | error code' =>
    rw [textOperation_of_fault hparse] at h
    cases h
    exact .inl rfl
  | ok v =>
    rw [textOperation_of_values hparse] at h
    split_ifs at h
    cases h
    exact .inr rfl

theorem textOperation_of_wrong_arity (hlong : tooLong p T = false) (h : (tokens T).length ≠ arity) :
    textOperation p arity W hash size payload T = .error .arity :=
  textOperation_of_fault (by rw [parseText, hlong, if_neg (by decide), if_pos h])

/-- ERR_TOO_LONG is the length gate's (R132), and no other stage's. -/
theorem textOperation_eq_tooLong_iff :
    textOperation p arity W hash size payload T = .error .tooLong ↔ tooLong p T = true := by
  refine ⟨fun h => ?_, fun h => textOperation_of_fault (if_pos h)⟩
  obtain hparse | hcode := textOperation_error_cases h
  · rw [parseText_eq] at hparse
    split_ifs at hparse with hlong
    · exact hlong
    all_goals cases hparse
  · cases hcode

/-- The end of a text operation, as the pseudocode's chain of tests (R120, R122, R123, R128, R132). -/
theorem finish_textOperation (s : State) : finish (textOperation p arity W hash size payload T) s =
    if tooLong p T = true then raise .tooLong s
    else if (tokens T).length ≠ arity then raise .arity s
    else if ∃ t ∈ tokens T, ¬ GoodToken W t then raise .parse s
    else if (hash ((tokens T).map fun t => BitVec.ofNat W (tokenValue t))).length ≠ size then raise .internal s
    else respond (.ok (payload (hash ((tokens T).map fun t => BitVec.ofNat W (tokenValue t))))) s := by
  have hparse := parseText_eq p arity W T
  by_cases hlong : tooLong p T = true
  · rw [if_pos hlong] at hparse ⊢
    rw [textOperation_of_fault hparse, finish]
  rw [if_neg hlong] at hparse ⊢
  by_cases harity : (tokens T).length ≠ arity
  · rw [if_pos harity] at hparse ⊢
    rw [textOperation_of_fault hparse, finish]
  rw [if_neg harity] at hparse ⊢
  by_cases hgood : ∀ t ∈ tokens T, GoodToken W t
  · have hbad : ¬ ∃ t ∈ tokens T, ¬ GoodToken W t := fun ⟨t, ht, hbad⟩ => hbad (hgood t ht)
    rw [if_pos hgood] at hparse
    rw [if_neg hbad, textOperation_of_values hparse, ite_not]
    split_ifs <;> rfl
  · rw [if_neg hgood] at hparse
    rw [if_pos (by simpa using hgood), textOperation_of_fault hparse, finish]

end TextOperation

/-! ## RESCUE_V1 (R124) -/

/-- The buffer of the values of good tokens holds sixteen bytes of each value (R51). -/
theorem hashBuffer_tokenValues {ts : List (List Byte)} (h : ∀ t ∈ ts, GoodToken 128 t) :
    hashBuffer (ts.map fun t => BitVec.ofNat 128 (tokenValue t)) =
      ts.flatMap fun t => (List.range 16).map fun j => BitVec.ofNat 8 (tokenValue t / 2 ^ (8 * j) % 256) := by
  rw [hashBuffer, List.flatMap_map]
  refine List.flatMap_congr fun t ht => ?_
  rw [littleEndian_eq_map, BitVec.toNat_ofNat, Nat.mod_eq_of_lt (h t ht).2]

/-- Settles O28: the chain of a text operation, with the buffer of good tokens written out. -/
theorem rescueV1HashesFourIntegers : Obligations.RescueV1HashesFourIntegers := by
  intro T s hs
  rw [exec_of_running (by simp) hs, answerOf, rescueV1Answer_eq_textOperation, finish_textOperation]
  by_cases hgood : ∀ t ∈ tokens T, GoodToken 128 t
  · rw [hashBuffer_tokenValues hgood]
    rfl
  · have hbad : ∃ t ∈ tokens T, ¬ GoodToken 128 t := by simpa using hgood
    rw [if_pos hbad, if_pos hbad]

/-! ## RESCUE_V2 (R126) -/

/-- Settles O29: the chain of a text operation, each value made a field element in order. -/
theorem rescueV2HashesEightIntegers : Obligations.RescueV2HashesEightIntegers := by
  intro T s hs
  rw [exec_of_running (by simp) hs, answerOf, rescueV2Answer_eq_textOperation, finish_textOperation, List.map_map]
  rfl

/-! ## RESCUE_V3 (R127) -/

section RescueV3

variable {FE : Type} {c : Collaborators FE} {p : Params} {B : List Byte}

/-- RESCUE_V3 as one chain of tests (R127). -/
theorem rescueV3Answer_eq : rescueV3Answer c p B =
    if tooLong p B = true then .error .tooLong
    else if (c.hBytes B).length ≠ 32 then .error .internal
    else if textValid p.textRule (c.hBytes B) = true then .ok (.text (c.hBytes B))
    else .error .text := rfl

theorem rescueV3Answer_of_wrong_size (hlong : tooLong p B = false) (hsize : (c.hBytes B).length ≠ 32) :
    rescueV3Answer c p B = .error .internal := by
  rw [rescueV3Answer_eq, hlong, if_neg (by decide), if_pos hsize]

/-- An OK answer is the whole digest of the payload, of the right size and text (R127, R128). -/
theorem rescueV3Answer_ok {a : OkPayload} (h : rescueV3Answer c p B = .ok a) :
    a = .text (c.hBytes B) ∧ (c.hBytes B).length = 32 ∧ textValid p.textRule (c.hBytes B) = true := by
  rw [rescueV3Answer_eq] at h
  split_ifs at h with hlong hsize htext
  cases h
  exact ⟨rfl, not_not.mp hsize, htext⟩

theorem rescueV3Answer_eq_tooLong_iff : rescueV3Answer c p B = .error .tooLong ↔ tooLong p B = true := by
  refine ⟨fun h => ?_, fun h => if_pos h⟩
  rw [rescueV3Answer_eq] at h
  split_ifs at h with hlong
  · exact hlong
  all_goals cases h

/-- The end of RESCUE_V3, in the order of the pseudocode (R127). -/
theorem finish_rescueV3Answer (s : State) : finish (rescueV3Answer c p B) s =
    if tooLong p B = true then raise .tooLong s
    else if (c.hBytes B).length ≠ 32 then raise .internal s
    else if textValid p.textRule (c.hBytes B) = false then raise .text s
    else respond (.ok (.text (c.hBytes B))) s := by
  rw [rescueV3Answer_eq]
  by_cases htext : textValid p.textRule (c.hBytes B) = true
  · have hnot : ¬ textValid p.textRule (c.hBytes B) = false := by simp [htext]
    rw [if_pos htext, if_neg hnot]
    split_ifs <;> rfl
  · rw [if_neg htext, if_pos (Bool.eq_false_of_not_eq_true htext)]
    split_ifs <;> rfl

end RescueV3

/-- Settles O30: the four outcomes of RESCUE_V3, tested in the rule's order. -/
theorem rescueV3HashesTheBytesThemselves : Obligations.RescueV3HashesTheBytesThemselves := by
  intro B s hs
  rw [exec_of_running (by simp) hs, answerOf, finish_rescueV3Answer]
  rfl

/-! ## The length gate (R132) -/

theorem tooLong_iff {p : Params} {B : List Byte} :
    tooLong p B = true ↔ ∃ m, p.maxInputBytes = some m ∧ m < B.length := by
  unfold tooLong
  cases p.maxInputBytes <;> simp

theorem rescueV1Answer_eq_tooLong_iff {FE : Type} {c : Collaborators FE} {p : Params} {T : List Byte} :
    rescueV1Answer c p T = .error .tooLong ↔ tooLong p T = true := by
  rw [rescueV1Answer_eq_textOperation, textOperation_eq_tooLong_iff]

theorem rescueV2Answer_eq_tooLong_iff {FE : Type} {c : Collaborators FE} {p : Params} {T : List Byte} :
    rescueV2Answer c p T = .error .tooLong ↔ tooLong p T = true := by
  rw [rescueV2Answer_eq_textOperation, textOperation_eq_tooLong_iff]

/-- Settles O31: each operation answers ERR_TOO_LONG exactly when its payload is longer than the bound. -/
theorem lengthGateComesFirst : Obligations.LengthGateComesFirst := by
  constructor
  · intro B s m hs hbound hlength
    have hlong : tooLong s.params B = true := tooLong_iff.mpr ⟨m, hbound, hlength⟩
    refine ⟨?_, ?_, ?_⟩
    · rw [exec_of_running (by simp) hs, answerOf, rescueV1Answer_eq_tooLong_iff.mpr hlong, finish]
    · rw [exec_of_running (by simp) hs, answerOf, rescueV2Answer_eq_tooLong_iff.mpr hlong, finish]
    · rw [exec_of_running (by simp) hs, answerOf, rescueV3Answer_eq_tooLong_iff.mpr hlong, finish]
  · intro FE c p B hbound
    have hlong : ¬ tooLong p B = true := by
      rw [tooLong_iff]
      rintro ⟨m, hm, hlt⟩
      obtain hnone | ⟨m', hm', hle⟩ := hbound
      · cases hnone.symm.trans hm
      · cases hm'.symm.trans hm
        exact absurd hlt hle.not_gt
    exact ⟨rescueV1Answer_eq_tooLong_iff.not.mpr hlong, rescueV2Answer_eq_tooLong_iff.not.mpr hlong,
      rescueV3Answer_eq_tooLong_iff.not.mpr hlong⟩

/-! ## Whatever the collaborators are (R123, R128, R130) -/

/-- Settles O32: a fault of the text stages ends a text operation before its hash. -/
theorem arityFailsBeforeTheCollaboratorIsCalled : Obligations.ArityFailsBeforeTheCollaboratorIsCalled := by
  intro FE c p T
  rw [rescueV1Answer_eq_textOperation, rescueV2Answer_eq_textOperation]
  exact ⟨textOperation_of_wrong_arity, textOperation_of_wrong_arity, fun _ => textOperation_of_fault,
    fun _ => textOperation_of_fault, fun h => absurd (rescueV3Answer_error h) (by decide)⟩

/-- Settles O33: the size check of a text operation and of RESCUE_V3, and what each answers with OK. -/
theorem digestSizeIsChecked : Obligations.DigestSizeIsChecked := by
  intro FE c p T
  rw [rescueV1Answer_eq_textOperation, rescueV2Answer_eq_textOperation]
  exact ⟨fun _ hparse hsize => textOperation_of_wrong_size hparse hsize,
    fun _ hparse hsize => textOperation_of_wrong_size hparse hsize, rescueV3Answer_of_wrong_size,
    fun _ => textOperation_ok, fun _ => textOperation_ok, fun _ => rescueV3Answer_ok⟩

/-- Of well-formed tokens the text stages see the values alone (R122, R130). -/
theorem parseText_of_wellFormed {p : Params} {T : List Byte} (hlong : tooLong p T = false)
    (hwf : ∀ t ∈ tokens T, tokenWellFormed t = true) (arity W : Nat) : parseText p arity W T =
      let values := (tokens T).map tokenValue
      if values.length ≠ arity then .error .arity
      else if ∀ x ∈ values, x < 2 ^ W then .ok (values.map (BitVec.ofNat W))
      else .error .parse := by
  have hgood : (∀ t ∈ tokens T, GoodToken W t) ↔ ∀ x ∈ (tokens T).map tokenValue, x < 2 ^ W := by
    rw [List.forall_mem_map]
    exact forall₂_congr fun t ht => and_iff_right (hwf t ht)
  rw [parseText_eq, hlong, if_neg (by decide)]
  simp only [hgood, List.length_map, List.map_map]
  rfl

theorem tokenValue_zero_cons (t : List Byte) : tokenValue (0x30 :: t) = tokenValue t := by
  rw [tokenValue]
  simp

/-- Settles O34: equal values pass the text stages alike, and the rest of a text operation sees only the values. -/
theorem equalTokenValuesGiveEqualAnswers : Obligations.EqualTokenValuesGiveEqualAnswers := by
  refine ⟨fun c p T U hunbounded hT hU hvalues => ?_, tokenValue_zero_cons⟩
  have hshort (B : List Byte) : tooLong p B = false := by rw [tooLong, hunbounded]
  have hparse (arity W : Nat) : parseText p arity W T = parseText p arity W U := by
    rw [parseText_of_wellFormed (hshort T) hT, parseText_of_wellFormed (hshort U) hU, hvalues]
  rw [rescueV1Answer_eq_textOperation, rescueV1Answer_eq_textOperation, rescueV2Answer_eq_textOperation,
    rescueV2Answer_eq_textOperation]
  exact ⟨textOperation_congr (hparse 4 128), textOperation_congr (hparse 8 64)⟩

end Sys2Proof.Machine

/-! # The system operation INIT_HOOK (R150) -/

namespace Sys2Proof.Machine

/-- Settles O35: past the gate INIT_HOOK is its own effect and OK; halted, it is the gate's ERR_HALTED (R180). -/
theorem initHookInstallsTheHandler : Obligations.InitHookInstallsTheHandler := by
  refine ⟨fun s hs => exec_initHook_of_running hs, fun s hs => ?_⟩
  rw [exec_of_halted _ hs, raise_halted_fault]

end Sys2Proof.Machine

/-! # Exceptions: fault entry (R171), the diagnostic record (R178), the halt gate (R180) -/

namespace Sys2Proof.Machine

/-- Settles O38: the gate of every instruction is the fault entry of ERR_HALTED, which appends its response alone. -/
theorem haltGateStopsEveryOperation : Obligations.HaltGateStopsEveryOperation := by
  intro i s hs
  rw [exec_of_halted i hs, raise_halted_fault]

/-- An instruction that answers a fault does its fault entry and nothing else (R171). -/
theorem exec_next_eq_raise {i : Instr} {s t : State} {F : FaultCode} (h : exec i s = .next t)
    (hr : t.responses = s.responses ++ [.fault F]) : t = raise F s := by
  obtain ⟨-, rfl⟩ | ⟨-, -, rfl⟩ | ⟨-, -, rfl⟩ := exec_next_cases h
  · obtain rfl : FaultCode.halted = F := by simpa using hr
    rfl
  · simp at hr
  · cases ha : answerOf i s.params with
    | ok payload => simp [ha, responseOf] at hr
    | error code =>
      obtain rfl : code = F := by simpa [ha, responseOf] using hr
      rfl

/-- An instruction that answers OK emits no record (R178). -/
theorem exec_no_record_of_ok {i : Instr} {s t : State} {payload : OkPayload} (h : exec i s = .next t)
    (hr : t.responses = s.responses ++ [.ok payload]) : t.diags = s.diags ∧ t.draws = s.draws := by
  obtain ⟨-, rfl⟩ | ⟨-, -, rfl⟩ | ⟨-, -, rfl⟩ := exec_next_cases h
  · simp at hr
  · exact ⟨rfl, rfl⟩
  · cases ha : answerOf i s.params with
    | ok _ => exact ⟨rfl, rfl⟩
    | error code => simp [ha, responseOf] at hr

/-- Settles O41: a fault response is the fault entry's, whose first line decides the record; OK emits none. -/
theorem diagnosticRecordExactlyOnFaultsWithHook : Obligations.DiagnosticRecordExactlyOnFaultsWithHook := by
  intro i s t r h hr
  cases r with
  | ok payload => exact ⟨nofun, fun _ => exec_no_record_of_ok h hr⟩
  | fault code =>
    obtain rfl := exec_next_eq_raise h hr
    rw [raise_diags, raise_draws]
    constructor
    · intro F hF hhook hne
      cases hF
      have hrecord : s.hook = true ∧ code ≠ .halted := ⟨hhook, hne⟩
      exact ⟨if_pos hrecord, if_pos hrecord⟩
    · intro hnone
      have hrecord : ¬ (s.hook = true ∧ code ≠ .halted) := by simpa [imp_iff_not_or] using hnone
      exact ⟨if_neg hrecord, if_neg hrecord⟩

/-- Two states with the same fields are the same state. -/
theorem State.eq_of_fields {s t : State} (hhook : s.hook = t.hook) (hhalted : s.halted = t.halted)
    (hparams : s.params = t.params) (hport : s.port = t.port) (hresponses : s.responses = t.responses)
    (hdiags : s.diags = t.diags) (hdraws : s.draws = t.draws) : s = t := by
  cases s
  cases t
  rw [State.mk.injEq]
  exact ⟨hhook, hhalted, hparams, hport, hresponses, hdiags, hdraws⟩

/-- Settles O37: each field of the state after fault entry. -/
theorem faultEntryIsExact : Obligations.FaultEntryIsExact := fun F s =>
  State.eq_of_fields (raise_hook F s) (raise_halted F s) (raise_params F s) (raise_port F s) (raise_responses F s)
    (raise_diags F s) (raise_draws F s)

end Sys2Proof.Machine

/-! # Reset of an idle block and in the middle of an operation (R190) -/

namespace Sys2Proof.Machine

/-- An abandoned request is an instruction the reset then abandons; a request of the format always decodes to one. -/
theorem serveAbandoned_of_fits {r : Request} {s : State} (h : r.fits s.params = true) :
    ∃ i u, exec i s = .next u ∧ serveAbandoned r s = .next (abandon s u) := by
  obtain ⟨i, hdecode⟩ := decode_of_fits h
  obtain ⟨u, hexec⟩ := exec_total i s
  exact ⟨i, u, hexec, by rw [serveAbandoned, serveRequest_of_decode hdecode, hexec]⟩

/-- An abandoned instruction takes back no record and leaves at most the one it would have emitted (R178, R190). -/
theorem abandon_diags_bounds {i : Instr} {s u : State} (h : exec i s = .next u) :
    s.diags <+: (abandon s u).diags ∧ (abandon s u).diags.length ≤ s.diags.length + 1 := by
  rw [abandon_diags]
  split_ifs with hseen
  · obtain hsame | ⟨-, d, hrecord⟩ := exec_diags h
    · simp [hsame]
    · simp [hrecord]
  · simp

/-- Settles O3: reset clears the two bits alone; an abandoned request runs to a next state, of which the reset keeps at
most a record. -/
theorem resetEventClearsCsrAndAbandonsOperation : Obligations.ResetEventClearsCsrAndAbandonsOperation := by
  refine ⟨fun s rest hlayout hport => step_event hlayout hport, fun s r rest hlayout hfits hport => ?_⟩
  obtain ⟨i, u, hexec, hserve⟩ := serveAbandoned_of_fits (s := { s with port := rest }) hfits
  have hrecords := abandon_diags_bounds hexec
  exact ⟨_, (step_event hlayout hport).trans hserve, rfl, rfl, rfl, rfl, rfl, hrecords⟩

end Sys2Proof.Machine
